-- ==== Sys2Proof/Word.lean ====
section
/-! DEFINITION. The words, the names and the small records the block is made of (R7, R8, R25 and the data
model of R20). Types only; what is computed with them stands in Decode.lean and under Machine/. -/

namespace Sys2Proof

/-- `W_TIME` of R7: the width in bits of `Word`. -/
@[simp] abbrev Config.wTime : Nat := 32

/-- `W_CMD` of R7: the width in bits of `Target`. -/
@[simp] abbrev Config.wCmd : Nat := 16

/-- A time, a timestamp or a pulse width in microseconds: `W_TIME` bits, unsigned (R7, R21, R24). -/
abbrev Word := BitVec Config.wTime

/-- A steering or speed target: `W_CMD` bits, unsigned (R7, R27). -/
abbrev Target := BitVec Config.wCmd

/-- One byte of a text line (R82). -/
abbrev Byte := BitVec 8

/-- The five capture channels (R25). Their indices are `Channel.index` of Decode.lean. -/
inductive Channel where
  | steer
  | throttle
  | mode
  | aux1
  | aux2
  deriving DecidableEq, Repr, Inhabited

/-- The two indicator sides (R20: the registers ending in `_L` and `_R`). -/
inductive Side where
  | left
  | right
  deriving DecidableEq, Repr, Inhabited

/-- The mode `CYCLE` selects afresh every time; never stored (R42, R152, R153). -/
inductive Mode where
  | manual
  | autonomous
  deriving DecidableEq, Repr, Inhabited

/-- A held DeviationMessage: kind `STOP`, or kind `DEV` with an unbounded signed integer (R26, R137). -/
inductive Message where
  | stop
  | dev (d : Int)
  deriving DecidableEq, Repr, Inhabited

/-- A MotionCommand: steering target and speed target (R27). -/
structure MotionCommand where
  steer : Target
  speed : Target
  deriving DecidableEq, Repr, Inhabited

/-- The ten rows of format DEV (R87). -/
inductive Bucket where
  | stop
  | propPos
  | propNeg
  | lockPos
  | lockNeg
  | revPos
  | revNeg
  | fullrevPos
  | fullrevNeg
  | zero
  deriving DecidableEq, Repr, Inhabited

/-- The four indicator classes (R88, R191); `turn .left` is TURN_LEFT, `turn .right` TURN_RIGHT.
Never stored (R42). -/
inductive IndClass where
  | reversing
  | turn (side : Side)
  | neutral
  deriving DecidableEq, Repr, Inhabited

/-- The seven formats of R80. -/
inductive Format where
  | event
  | pin
  | line
  | mode
  | phase
  | dev
  | ind
  deriving DecidableEq, Repr, Inhabited

/-- A register array indexed by channel: `X[c]` of R9. -/
structure PerChannel (α : Type) where
  steer : α
  throttle : α
  mode : α
  aux1 : α
  aux2 : α
  deriving DecidableEq, Repr, Inhabited

/-- A pair of registers, one per indicator side. -/
structure PerSide (α : Type) where
  left : α
  right : α
  deriving DecidableEq, Repr, Inhabited

/-- What phase 1 of `CYCLE` reads once: `t`, `m`, `s`, `h` of R150 and R151. -/
structure Snapshot where
  t : Word
  m : Word
  s : Word
  h : Word
  deriving DecidableEq, Repr, Inhabited

/-- What the outside world presents to the block, one event a step (R40, R89, R81, R82): a microsecond
passing, a pulse on `cycle_go`, `rst` with the levels of the five pins, a consumer sampling the read port
with `rdw_sel`, a pin event as its five bits `ccc p n`, one complete line as its bytes. -/
inductive Input where
  | tick
  | cycleGo
  | rst (levels : PerChannel Bool)
  | rdw (sel : BitVec 3)
  | pin (code : BitVec 5)
  | line (bytes : List Byte)
  deriving DecidableEq, Repr, Inhabited

/-- A value an operation hands to whoever asked for it and stores in no register: the width `RDW` reads
(R114), the mode `SEL.AUTO` and `SEL.MANUAL` select (R152, R153), the result of a `MAP` row (R170). -/
inductive Result where
  | width (c : Channel) (v : Word)
  | mode (m : Mode)
  | command (r : Option MotionCommand)
  deriving DecidableEq, Repr, Inhabited

/-- Why a code names no operation. -/
inductive Reject where
  /-- A channel index 5, 6 or 7, in a pin code or on `rdw_sel`: it names no channel (R62, R90). -/
  | noChannel (index : BitVec 3)
  /-- A blink state that selects no `BLINK.TOGGLE` (R196). -/
  | noToggle
  deriving DecidableEq, Repr, Inhabited

end Sys2Proof
end

