-- ==== Sys2Proof/Config.lean ====
section
/-! DEFINITION. The parameters of R7, each a field whose value is the one of R7's table (`Config.wTime` and
`Config.wCmd`, which the word types are made of, stand in Word.lean), and the two free values of the model. A corrected literal is a change of one line here (D34 of 92_eei_decisions.md). -/

namespace Sys2Proof

/-- `N_CH`: an index of `N_CH` or more names no channel (R62). -/
@[simp] abbrev Config.nCh : Nat := 5

/-- `CH_STEER`, the index of STEER (R25). -/
@[simp] abbrev Config.chSteer : Nat := 0

/-- `CH_THROTTLE`. -/
@[simp] abbrev Config.chThrottle : Nat := 1

/-- `CH_MODE`. -/
@[simp] abbrev Config.chMode : Nat := 2

/-- `CH_AUX1`. -/
@[simp] abbrev Config.chAux1 : Nat := 3

/-- `CH_AUX2`. -/
@[simp] abbrev Config.chAux2 : Nat := 4

/-- `TICK_US`: microseconds of real time per `TICK`. -/
def Config.tickUs : Nat := 1

/-- `MODE_THRESH`: above it the mode is autonomous (R152). -/
@[simp] abbrev Config.modeThresh : Nat := 1500

/-- `STEER_MIN`, lower bound of the manual steering clamp (R154). -/
@[simp] abbrev Config.steerMin : Int := 1000

/-- `STEER_MAX`. -/
@[simp] abbrev Config.steerMax : Int := 2000

/-- `SPEED_MIN`, lower bound of the manual speed clamp (R154). -/
@[simp] abbrev Config.speedMin : Int := 1440

/-- `SPEED_MAX`. -/
@[simp] abbrev Config.speedMax : Int := 1560

/-- `MAP_CENTER`, centre of the proportional law (R172). -/
@[simp] abbrev Config.mapCenter : Int := 1500

/-- `MAP_GAIN`. -/
@[simp] abbrev Config.mapGain : Int := 40

/-- `PROP_MIN`, clamp of the proportional law. -/
@[simp] abbrev Config.propMin : Int := 1400

/-- `PROP_MAX`. -/
@[simp] abbrev Config.propMax : Int := 1600

/-- `B1`, the first bucket boundary (R87). -/
@[simp] abbrev Config.b1 : Int := 40

/-- `B2`. -/
@[simp] abbrev Config.b2 : Int := 80

/-- `B3`. -/
@[simp] abbrev Config.b3 : Int := 100

/-- `STOP_STEER` (R171). -/
@[simp] abbrev Config.stopSteer : Target := 1500

/-- `STOP_SPEED` (R171). -/
@[simp] abbrev Config.stopSpeed : Target := 1435

/-- `PROP_SPEED` (R172, R173). -/
@[simp] abbrev Config.propSpeed : Target := 1560

/-- `LOCK_STEER_POS` (R174). -/
@[simp] abbrev Config.lockSteerPos : Target := 1000

/-- `LOCK_STEER_NEG` (R175). -/
@[simp] abbrev Config.lockSteerNeg : Target := 2000

/-- `LOCK_SPEED` (R174, R175). -/
@[simp] abbrev Config.lockSpeed : Target := 1550

/-- `REV_STEER_POS` (R176, R178). -/
@[simp] abbrev Config.revSteerPos : Target := 1800

/-- `REV_STEER_NEG` (R177, R179). -/
@[simp] abbrev Config.revSteerNeg : Target := 1200

/-- `REV_SPEED` (R176, R177). -/
@[simp] abbrev Config.revSpeed : Target := 1440

/-- `FULLREV_SPEED` (R178, R179). -/
@[simp] abbrev Config.fullrevSpeed : Target := 1430

/-- `IND_CENTER`: a speed below it is class REVERSING (R191). -/
@[simp] abbrev Config.indCenter : Nat := 1500

/-- `LEFT_THRESH`: steering below it is TURN_LEFT (R191). -/
@[simp] abbrev Config.leftThresh : Nat := 1450

/-- `RIGHT_THRESH`: steering above it is TURN_RIGHT (R191). -/
@[simp] abbrev Config.rightThresh : Nat := 1550

/-- `BLINK_US`: the blink half-period in ticks (R196). -/
@[simp] abbrev Config.blinkUs : Nat := 200000

/-- `MBX_DEPTH`: how many messages the mailbox holds before the line port closes (R26, R130). -/
@[simp] abbrev Config.mbxDepth : Nat := 1

/-- `LINE_MAX`: the longest line in bytes, or none for no limit. OPEN in the spec, unbounded (D14, U5). -/
@[simp] abbrev Config.lineMax : Option Nat := none

/-- `CYCLE_PERIOD_US`: OPEN in the spec, no bound (D16); no rule reads it. -/
def Config.cyclePeriodUs : Option Nat := none

/-- `WIDTH_RESET[c]` (R38). -/
@[simp] abbrev Config.widthReset : PerChannel Word := ⟨1500, 1500, 1500, 1500, 1500⟩

/-- `CMD_RESET` (R38). -/
@[simp] abbrev Config.cmdReset : MotionCommand := ⟨1500, 1500⟩

/-- `IND_ENTRY_RESET`: whether entry into a blinking class resets the toggle time (D22, C2). -/
@[simp] abbrev Config.indEntryReset : Bool := true

/-- FREE VALUE. The event the environment brings when none of `State.inputs` can happen: which event comes
next, and when, is the environment's choice (R11, R42, R216; U10 to U13), so nothing constrains it. -/
opaque Config.environment : Nat → Input

/-- FREE VALUE. What the read port shows while `rdw_sel` is 5, 6 or 7 (R41, U7), for the selection and the
five widths. -/
opaque Config.rdwUnspecified : BitVec 3 → PerChannel Word → Word

end Sys2Proof
end

