-- ==== Sys2Proof/Syntax.lean ====
section
/-! DEFINITION. The operations of the block: one constructor per row of spec/opcode_table.json (R80).
An argument is an operand its rule names; a sub-operation of `CYCLE` takes the snapshot values its rule takes. -/

namespace Sys2Proof

inductive Instr where
  /-- `TICK` (R110). -/
  | tick
  /-- `CYCLE` (R150). -/
  | cycle
  /-- `RESET` (R240), with the levels of the five pins at that moment, `PIN_RESET[c]`. -/
  | reset (pins : PerChannel Bool)
  /-- `RDW c` (R114). -/
  | rdw (c : Channel)
  /-- `RISE c` (R111). -/
  | rise (c : Channel)
  /-- `FALL c` (R112). -/
  | fall (c : Channel)
  /-- `NOEDGE c`, the row `ccc00` (R113). -/
  | noedgeLow (c : Channel)
  /-- `NOEDGE c`, the row `ccc11` (R113). -/
  | noedgeHigh (c : Channel)
  /-- `MSG.S` (R131). -/
  | msgS
  /-- `MSG.N` (R132). -/
  | msgN
  /-- `MSG.D d` (R133). -/
  | msgD (d : Int)
  /-- `MSG.IGNORE` (R134). -/
  | msgIgnore
  /-- `SEL.AUTO` (R152), `m` the snapshot of `WIDTH[MODE]`. -/
  | selAuto (m : Word)
  /-- `SEL.MANUAL` (R153). -/
  | selManual (m : Word)
  /-- `MANUAL(s, h)` (R154), the snapshots of `WIDTH[STEER]` and `WIDTH[THROTTLE]`. -/
  | manual (s h : Word)
  /-- `AUTO.CONSUME` (R155); its operand is the held message. -/
  | autoConsume
  /-- `AUTO.HOLD` (R156). -/
  | autoHold
  /-- `MAP.STOP` (R171). -/
  | mapStop
  /-- `MAP.PROP_POS` (R172). -/
  | mapPropPos (d : Int)
  /-- `MAP.PROP_NEG` (R173). -/
  | mapPropNeg (d : Int)
  /-- `MAP.LOCK_POS` (R174). -/
  | mapLockPos (d : Int)
  /-- `MAP.LOCK_NEG` (R175). -/
  | mapLockNeg (d : Int)
  /-- `MAP.REV_POS` (R176). -/
  | mapRevPos (d : Int)
  /-- `MAP.REV_NEG` (R177). -/
  | mapRevNeg (d : Int)
  /-- `MAP.FULLREV_POS` (R178). -/
  | mapFullrevPos (d : Int)
  /-- `MAP.FULLREV_NEG` (R179). -/
  | mapFullrevNeg (d : Int)
  /-- `MAP.ZERO` (R180). -/
  | mapZero
  /-- `CLS.REVERSING` (R192). -/
  | clsReversing
  /-- `CLS.TURN_LEFT(t)` (R193), `t` the snapshot of `TIME`. -/
  | clsTurnLeft (t : Word)
  /-- `CLS.TURN_RIGHT(t)` (R194). -/
  | clsTurnRight (t : Word)
  /-- `CLS.NEUTRAL` (R195). -/
  | clsNeutral
  /-- `BLINK.TOGGLE` (R196) inside the class of `side`. -/
  | blinkToggle (side : Side) (t : Word)
  deriving DecidableEq, Repr, Inhabited

/-- The format of an operation's row (R80). -/
def Instr.format : Instr → Format
  | .tick => .event
  | .cycle => .event
  | .reset _ => .event
  | .rdw _ => .event
  | .rise _ => .pin
  | .fall _ => .pin
  | .noedgeLow _ => .pin
  | .noedgeHigh _ => .pin
  | .msgS => .line
  | .msgN => .line
  | .msgD _ => .line
  | .msgIgnore => .line
  | .selAuto _ => .mode
  | .selManual _ => .mode
  | .manual _ _ => .phase
  | .autoConsume => .phase
  | .autoHold => .phase
  | .mapStop => .dev
  | .mapPropPos _ => .dev
  | .mapPropNeg _ => .dev
  | .mapLockPos _ => .dev
  | .mapLockNeg _ => .dev
  | .mapRevPos _ => .dev
  | .mapRevNeg _ => .dev
  | .mapFullrevPos _ => .dev
  | .mapFullrevNeg _ => .dev
  | .mapZero => .dev
  | .clsReversing => .ind
  | .clsTurnLeft _ => .ind
  | .clsTurnRight _ => .ind
  | .clsNeutral => .ind
  | .blinkToggle _ _ => .ind

end Sys2Proof
end

