-- ==== Sys2Proof/WellFormed.lean ====
section
/-! DEFINITION. Which operands an operation can have at all: the selecting condition of its row where that is
a condition on its operands (R85, R87). A channel is always one of the five (R62), so it needs no check. -/

namespace Sys2Proof

/-- The operands lie in the range of the operation's row. -/
def wellFormed : Instr → Bool
  | .tick => true
  | .cycle => true
  | .reset _ => true
  | .rdw _ => true
  | .rise _ => true
  | .fall _ => true
  | .noedgeLow _ => true
  | .noedgeHigh _ => true
  | .msgS => true
  | .msgN => true
  | .msgD _ => true
  | .msgIgnore => true
  | .selAuto m => decide (Config.modeThresh < m.toNat)
  | .selManual m => decide (m.toNat ≤ Config.modeThresh)
  | .manual _ _ => true
  | .autoConsume => true
  | .autoHold => true
  | .mapStop => true
  | .mapPropPos d => decide (0 < d ∧ d < Config.b1)
  | .mapPropNeg d => decide (-Config.b1 < d ∧ d < 0)
  | .mapLockPos d => decide (Config.b1 ≤ d ∧ d < Config.b2)
  | .mapLockNeg d => decide (-Config.b2 < d ∧ d ≤ -Config.b1)
  | .mapRevPos d => decide (Config.b2 ≤ d ∧ d < Config.b3)
  | .mapRevNeg d => decide (-Config.b3 < d ∧ d ≤ -Config.b2)
  | .mapFullrevPos d => decide (Config.b3 ≤ d)
  | .mapFullrevNeg d => decide (d ≤ -Config.b3)
  | .mapZero => true
  | .clsReversing => true
  | .clsTurnLeft _ => true
  | .clsTurnRight _ => true
  | .clsNeutral => true
  | .blinkToggle _ _ => true

/-- `wellFormed` as a statement. -/
abbrev WellFormed (i : Instr) : Prop := wellFormed i = true

end Sys2Proof
end

