-- ==== Sys2Proof/Decode.lean ====
section
/-! DEFINITION. Decoding (30_encoding.md): the pin code, the text line, the selectors of the formats MODE,
PHASE, DEV and IND; then the encoder, written from the same tables; then the opcode table's words. -/

namespace Sys2Proof

/-! ### Format PIN and the read port's selection (R81, R25) -/

/-- The index of a channel (R25). -/
def Channel.index : Channel → BitVec 3
  | .steer => BitVec.ofNat 3 Config.chSteer
  | .throttle => BitVec.ofNat 3 Config.chThrottle
  | .mode => BitVec.ofNat 3 Config.chMode
  | .aux1 => BitVec.ofNat 3 Config.chAux1
  | .aux2 => BitVec.ofNat 3 Config.chAux2

/-- The channels, in the order of their names (R25). -/
def Channel.all : List Channel := [.steer, .throttle, .mode, .aux1, .aux2]

/-- The channel an index names; `N_CH` and above name none (R62, R81). -/
def Channel.ofIndex (i : BitVec 3) : Option Channel :=
  if i.toNat < Config.nCh then Channel.all.find? (fun c => c.index == i) else none

/-- A pin event, the five bits `ccc p n`: channel index, previous level, new level (R81). -/
def decodePin (code : BitVec 5) : Except Reject Instr :=
  match Channel.ofIndex (code.extractLsb' 2 3) with
  | none => .error (.noChannel (code.extractLsb' 2 3))
  | some c =>
    match code.getLsbD 1, code.getLsbD 0 with
    | false, true => .ok (.rise c)
    | true, false => .ok (.fall c)
    | false, false => .ok (.noedgeLow c)
    | true, true => .ok (.noedgeHigh c)

/-- A consumer's sample of the read port with `rdw_sel` (R89, R40). -/
def decodeRdw (sel : BitVec 3) : Except Reject Instr :=
  match Channel.ofIndex sel with
  | none => .error (.noChannel sel)
  | some c => .ok (.rdw c)

/-! ### Format LINE (R82, R83, R84) -/

/-- The six whitespace bytes HT, LF, VT, FF, CR and space (R82). -/
def isSpace (b : Byte) : Bool :=
  b == 0x09#8 || b == 0x0A#8 || b == 0x0B#8 || b == 0x0C#8 || b == 0x0D#8 || b == 0x20#8

/-- The line without its longest whitespace run at either end (R82). -/
def trim (b : List Byte) : List Byte :=
  ((b.dropWhile isSpace).reverse.dropWhile isSpace).reverse

/-- A digit byte, 0x30 to 0x39 (R84). -/
def isDigit (b : Byte) : Bool :=
  decide (0x30 ≤ b.toNat) && decide (b.toNat ≤ 0x39)

/-- The decimal number of a row of digit bytes, most significant digit first (R84). -/
def digitsValue (ds : List Byte) : Nat :=
  ds.foldl (fun n b => 10 * n + (b.toNat - 0x30)) 0

/-- One or more digit bytes and nothing else (R84). -/
def decodeDigits (ds : List Byte) : Option Nat :=
  if ds ≠ [] ∧ ds.all isDigit = true then some (digitsValue ds) else none

/-- `<signed integer>`: an optional sign byte, then digits (R84). -/
def decodeInteger : List Byte → Option Int
  | [] => none
  | b :: ds =>
    if b = 0x2D#8 then (decodeDigits ds).map (fun n : Nat => -(n : Int))
    else if b = 0x2B#8 then (decodeDigits ds).map (fun n : Nat => (n : Int))
    else (decodeDigits (b :: ds)).map (fun n : Nat => (n : Int))

/-- The operation of a trimmed line, by the first matching row of R83. -/
def decodeTrimmed : List Byte → Instr
  | [] => .msgIgnore
  | [b] => if b = 0x53#8 then .msgS else if b = 0x4E#8 then .msgN else .msgIgnore
  | b0 :: b1 :: v =>
    if b0 = 0x44#8 ∧ b1 = 0x3A#8 then
      match decodeInteger v with
      | some d => .msgD d
      | none => .msgIgnore
    else .msgIgnore

/-- Whether a realisation with the buffer `Config.lineMax` could not hold the line (R91); never, with
`LINE_MAX` unbounded. -/
def lineTooLong (b : List Byte) : Bool :=
  match Config.lineMax with
  | none => false
  | some n => decide (n < b.length)

/-- The operation of a complete line (R130; an over-long line is `MSG.IGNORE`, R91). -/
def decodeLine (b : List Byte) : Instr :=
  if lineTooLong b then .msgIgnore else decodeTrimmed (trim b)

/-! ### Events of the environment -/

/-- The operation an input event is (R89, R81, R130). -/
def decodeInput : Input → Except Reject Instr
  | .tick => .ok .tick
  | .cycleGo => .ok .cycle
  | .rst levels => .ok (.reset levels)
  | .rdw sel => decodeRdw sel
  | .pin code => decodePin code
  | .line b => .ok (decodeLine b)

/-! ### Formats MODE, PHASE, DEV, IND: the selectors inside one `CYCLE` -/

/-- Format MODE: strictly above 1500 is autonomous, compared unsigned (R85). -/
def modeOf (m : Word) : Mode :=
  if Config.modeThresh < m.toNat then .autonomous else .manual

/-- Format DEV: the row of the held message (R87). -/
def bucketOf : Message → Bucket
  | .stop => .stop
  | .dev d =>
    if d ≤ -Config.b3 then .fullrevNeg
    else if d ≤ -Config.b2 then .revNeg
    else if d ≤ -Config.b1 then .lockNeg
    else if d < 0 then .propNeg
    else if d = 0 then .zero
    else if d < Config.b1 then .propPos
    else if d < Config.b2 then .lockPos
    else if d < Config.b3 then .revPos
    else .fullrevPos

/-- Format IND: the class of a command, first match wins (R88, R191). -/
def classOf (cmd : MotionCommand) : IndClass :=
  if cmd.speed.toNat < Config.indCenter then .reversing
  else if cmd.steer.toNat < Config.leftThresh then .turn .left
  else if Config.rightThresh < cmd.steer.toNat then .turn .right
  else .neutral

/-- `(t -% TGL) >=u 200000`: elapsed time modulo 2^32, compared unsigned (R196, R197). -/
def toggleDue (t tgl : Word) : Bool :=
  decide (Config.blinkUs ≤ (t - tgl).toNat)

/-- What selects a sub-operation: a case of format MODE, PHASE, DEV or IND, or the blink timer of a class.
These formats have no bits in the spec (R80); the values that select them are their code. -/
inductive Selector where
  | mode (m : Word)
  | phase (m : Mode) (valid : Bool) (s h : Word)
  | dev (msg : Message)
  | ind (cmd : MotionCommand) (t : Word)
  | blink (cmd : MotionCommand) (blinking : PerSide Bool) (tgl : PerSide Word) (t : Word)
  deriving DecidableEq, Repr

/-- The operation of a row of format DEV, with the deviation as its operand (R87). -/
def bucketInstr : Message → Instr
  | .stop => .mapStop
  | .dev d =>
    match bucketOf (.dev d) with
    | .stop => .mapStop
    | .propPos => .mapPropPos d
    | .propNeg => .mapPropNeg d
    | .lockPos => .mapLockPos d
    | .lockNeg => .mapLockNeg d
    | .revPos => .mapRevPos d
    | .revNeg => .mapRevNeg d
    | .fullrevPos => .mapFullrevPos d
    | .fullrevNeg => .mapFullrevNeg d
    | .zero => .mapZero

/-- The sub-operation a selector selects (R85 to R88). -/
def decodeSelector : Selector → Except Reject Instr
  | .mode m =>
    match modeOf m with
    | .autonomous => .ok (.selAuto m)
    | .manual => .ok (.selManual m)
  | .phase .manual _ s h => .ok (.manual s h)
  | .phase .autonomous true _ _ => .ok .autoConsume
  | .phase .autonomous false _ _ => .ok .autoHold
  | .dev msg => .ok (bucketInstr msg)
  | .ind cmd t =>
    match classOf cmd with
    | .reversing => .ok .clsReversing
    | .turn .left => .ok (.clsTurnLeft t)
    | .turn .right => .ok (.clsTurnRight t)
    | .neutral => .ok .clsNeutral
  | .blink cmd blinking tgl t =>
    match classOf cmd with
    | .turn .left =>
      if blinking.left && toggleDue t tgl.left then .ok (.blinkToggle .left t) else .error .noToggle
    | .turn .right =>
      if blinking.right && toggleDue t tgl.right then .ok (.blinkToggle .right t) else .error .noToggle
    | .reversing => .error .noToggle
    | .neutral => .error .noToggle

/-- A code of any format: an event of the environment, or the selector of a sub-operation. -/
inductive Code where
  | event (e : Input)
  | selected (q : Selector)
  deriving DecidableEq, Repr

/-- The format a code belongs to (R80). -/
def Code.format : Code → Format
  | .event .tick => .event
  | .event .cycleGo => .event
  | .event (.rst _) => .event
  | .event (.rdw _) => .event
  | .event (.pin _) => .pin
  | .event (.line _) => .line
  | .selected (.mode _) => .mode
  | .selected (.phase _ _ _ _) => .phase
  | .selected (.dev _) => .dev
  | .selected (.ind _ _) => .ind
  | .selected (.blink _ _ _ _) => .ind

/-- Decoding of any code of the seven formats. -/
def decode : Code → Except Reject Instr
  | .event e => decodeInput e
  | .selected q => decodeSelector q

/-! ### The encoder -/

/-- The digit byte of a number below ten. -/
def digitByte (k : Nat) : Byte := BitVec.ofNat 8 (0x30 + k)

/-- The decimal digits of `n` in front of `acc`, most significant first; `fuel` bounds their number. -/
def decimalAux : Nat → Nat → List Byte → List Byte
  | 0, _, acc => acc
  | fuel + 1, n, acc =>
    if n < 10 then digitByte n :: acc
    else decimalAux fuel (n / 10) (digitByte (n % 10) :: acc)

/-- The decimal digits of `n` (R84). -/
def decimal (n : Nat) : List Byte := decimalAux (n + 1) n []

/-- A signed integer as text, a sign byte only when it is negative (R84). -/
def encodeInteger (d : Int) : List Byte :=
  if d < 0 then 0x2D#8 :: decimal d.natAbs else decimal d.natAbs

/-- The five bits `ccc p n` (R81). -/
def encodePin (c : Channel) (p n : Bool) : BitVec 5 :=
  c.index ++ BitVec.ofBool p ++ BitVec.ofBool n

/-- A command of the class TURN_LEFT or TURN_RIGHT. -/
def turnCommand : Side → MotionCommand
  | .left => ⟨1400, 1500⟩
  | .right => ⟨1600, 1500⟩

/-- A code of the operation. An operation several codes select (a line with blanks around it, a command of
the class) is given one of them. -/
def encode : Instr → Code
  | .tick => .event .tick
  | .cycle => .event .cycleGo
  | .reset pins => .event (.rst pins)
  | .rdw c => .event (.rdw c.index)
  | .rise c => .event (.pin (encodePin c false true))
  | .fall c => .event (.pin (encodePin c true false))
  | .noedgeLow c => .event (.pin (encodePin c false false))
  | .noedgeHigh c => .event (.pin (encodePin c true true))
  | .msgS => .event (.line [0x53#8])
  | .msgN => .event (.line [0x4E#8])
  | .msgD d => .event (.line (0x44#8 :: 0x3A#8 :: encodeInteger d))
  | .msgIgnore => .event (.line [])
  | .selAuto m => .selected (.mode m)
  | .selManual m => .selected (.mode m)
  | .manual s h => .selected (.phase .manual false s h)
  | .autoConsume => .selected (.phase .autonomous true 0 0)
  | .autoHold => .selected (.phase .autonomous false 0 0)
  | .mapStop => .selected (.dev .stop)
  | .mapPropPos d => .selected (.dev (.dev d))
  | .mapPropNeg d => .selected (.dev (.dev d))
  | .mapLockPos d => .selected (.dev (.dev d))
  | .mapLockNeg d => .selected (.dev (.dev d))
  | .mapRevPos d => .selected (.dev (.dev d))
  | .mapRevNeg d => .selected (.dev (.dev d))
  | .mapFullrevPos d => .selected (.dev (.dev d))
  | .mapFullrevNeg d => .selected (.dev (.dev d))
  | .mapZero => .selected (.dev (.dev 0))
  | .clsReversing => .selected (.ind ⟨1500, 1435⟩ 0)
  | .clsTurnLeft t => .selected (.ind (turnCommand .left) t)
  | .clsTurnRight t => .selected (.ind (turnCommand .right) t)
  | .clsNeutral => .selected (.ind ⟨1500, 1500⟩ 0)
  | .blinkToggle side t =>
    .selected (.blink (turnCommand side) ⟨true, true⟩ ⟨t - 200000, t - 200000⟩ t)

/-! ### The opcode table's words -/

/-- The bytes of `w`, `n` of them, the first in the highest bits: how the table writes a line's bytes
(R80: "byte 0 first and bit 7 first"). -/
def wordBytes (n w : Nat) : List Byte :=
  (List.range n).map fun k => BitVec.ofNat 8 (w / 2 ^ (8 * (n - 1 - k)))

/-- The line of a LINE row. The table gives the integer of `MSG.D` no bits; its operand is then the digit
zero, so that the bare two bytes `D:` become the line `D:0`. -/
def tableLine (n w : Nat) : List Byte :=
  if wordBytes n w = [0x44#8, 0x3A#8] then [0x44#8, 0x3A#8, 0x30#8] else wordBytes n w

/-- The input event a word of the opcode table stands for: one byte below 32 is a pin code (five bits, the
three above them zero), any other word the bytes of a line. A row of no bits names no event. -/
def tableInput (nbits w : Nat) : Option Input :=
  if nbits = 0 then none
  else if nbits ≤ 8 ∧ w < 32 then some (.pin (BitVec.ofNat 5 w))
  else some (.line (tableLine ((nbits + 7) / 8) w))

/-- The instruction the decoder reads from a word numbered as spec/opcode_table.json numbers it. -/
def decodeTableWord (nbits w : Nat) : Option Instr :=
  match tableInput nbits w with
  | none => none
  | some e =>
    match decodeInput e with
    | .ok i => some i
    | .error _ => none

end Sys2Proof
end

