-- ==== Sys2Proof/Machine/State.lean ====
section
/-! DEFINITION. The state of the block (R20), the ways a step can stop, and the state after reset (R38). -/

namespace Sys2Proof.Machine

open Sys2Proof

/-- The block raises no exception, fault or trap and has no state from which it cannot continue (R210), so
no reason exists and nothing raises one. Safe: no step ends here. -/
inductive Fault where
  deriving DecidableEq, Repr

/-- Why a step has no next state. -/
inductive Refusal where
  /-- Raised by an arm of `exec` whose operation has no meaning yet; none is left. Safe. -/
  | notModelled (mnemonic : String)
  /-- Raised by a meaning in a state, or on operands, in which its rule does not enable or select the
  operation: such a step cannot be taken (R11), and `step` never takes one. Safe: the block has no such
  behaviour. -/
  | notEnabled (operation : String)
  /-- What `step` would answer for an event that names no operation, a channel index 5 to 7 (R62, R90). Such
  an event cannot happen, so no state raises it. Safe. -/
  | notDecoded (why : Reject)
  deriving DecidableEq, Repr

/-- The registers of R20, then the output trace of R44, then the model's own fields. -/
structure State where
  /-- `TIME` (R21). -/
  time : Word
  /-- `PIN[c]` (R22). -/
  pin : PerChannel Bool
  /-- `START[c]` (R23). -/
  start : PerChannel Word
  /-- `WIDTH[c]` (R24). -/
  width : PerChannel Word
  /-- The mailbox `MBX_VALID`, `MBX_KIND`, `MBX_DEV`: a message, or none when `MBX_VALID` = 0 (R26, U4). -/
  mbx : Option Message
  /-- `CMD_STEER`, `CMD_SPEED` (R27). -/
  cmd : MotionCommand
  /-- `BLINK_L`, `BLINK_R` (R28). -/
  blink : PerSide Bool
  /-- `TGL_L`, `TGL_R` (R29). -/
  tgl : PerSide Word
  /-- `OUT_L`, `OUT_R` (R30). -/
  out : PerSide Bool
  /-- The `ACT_ISSUE(steer, speed)` events, oldest first: a history no rule reads (R44). -/
  trace : List MotionCommand
  /-- The model's own: the values operations handed out, oldest first; a history no step reads. -/
  results : List Result
  /-- The model's own: the input events the environment has lined up, in their order; one that cannot
  happen yet waits (R42, R250). -/
  inputs : List Input
  /-- The model's own: which free event the environment brings when none of `inputs` can happen. -/
  eventNo : Nat
  deriving DecidableEq, Repr

/-- What one step answers. -/
abbrev Answer := Host.Outcome State Fault Refusal

/-- The state of R38 for the pin levels `PIN_RESET`, with empty histories and nothing lined up. -/
def State.resetWith (pins : PerChannel Bool) : State where
  time := 0
  pin := pins
  start := ⟨0, 0, 0, 0, 0⟩
  width := Config.widthReset
  mbx := none
  cmd := Config.cmdReset
  blink := ⟨false, false⟩
  tgl := ⟨0, 0⟩
  out := ⟨false, false⟩
  trace := []
  results := []
  inputs := []
  eventNo := 0

/-- The machine right after reset. DESIGN CHOICE (log 5): all five pins low; `RESET` itself takes the levels
as its operand (R22, U8). -/
def State.reset : State := State.resetWith ⟨false, false, false, false, false⟩

end Sys2Proof.Machine
end

