-- ==== Sys2Proof/Machine/Operands.lean ====
section
/-! DEFINITION. The operand forms: a register array's element, the clamp, a target, the cycle's snapshot. -/

namespace Sys2Proof

/-- Element `c` of a register array (R9). -/
def PerChannel.get {α : Type} (x : PerChannel α) : Channel → α
  | .steer => x.steer
  | .throttle => x.throttle
  | .mode => x.mode
  | .aux1 => x.aux1
  | .aux2 => x.aux2

/-- The array with element `c` replaced. -/
def PerChannel.set {α : Type} (x : PerChannel α) (c : Channel) (v : α) : PerChannel α :=
  match c with
  | .steer => { x with steer := v }
  | .throttle => { x with throttle := v }
  | .mode => { x with mode := v }
  | .aux1 => { x with aux1 := v }
  | .aux2 => { x with aux2 := v }

/-- The register of a side. -/
def PerSide.get {α : Type} (x : PerSide α) : Side → α
  | .left => x.left
  | .right => x.right

/-- The pair with one side's register replaced. -/
def PerSide.set {α : Type} (x : PerSide α) (side : Side) (v : α) : PerSide α :=
  match side with
  | .left => { x with left := v }
  | .right => { x with right := v }

/-- The opposite side. -/
def Side.other : Side → Side
  | .left => .right
  | .right => .left

end Sys2Proof

namespace Sys2Proof.Machine

open Sys2Proof

/-- `clamp(v, lo, hi)`, bounds inclusive (R10). -/
def clamp (v lo hi : Int) : Int :=
  if v < lo then lo else if hi < v then hi else v

/-- A clamped value as a target register holds it; exact for 0 .. 65535 (R27). -/
def targetOfInt (v : Int) : Target := BitVec.ofInt Config.wCmd v

/-- A published width clamped as an unsigned number (R10, R154, D7). -/
def clampWidth (w : Word) (lo hi : Int) : Target := targetOfInt (clamp (w.toNat : Int) lo hi)

/-- The mailbox can take one more message: with `MBX_DEPTH` 1, `MBX_VALID` = 0 (R26, R130). -/
def State.hasRoom (s : State) : Bool := decide (s.mbx.toList.length < Config.mbxDepth)

/-- Phase 1 of `CYCLE`: `TIME` and the three widths, read once (R151). -/
def State.snapshot (s : State) : Snapshot where
  t := s.time
  m := s.width.get .mode
  s := s.width.get .steer
  h := s.width.get .throttle

end Sys2Proof.Machine
end

