-- ==== Sys2Proof/Machine/Ops.lean ====
section
/-! DEFINITION. The named operations over the registers: every meaning writes the state through these.
The block has no memory (R60) and takes no exception (R210, R217, R218), so there is no operation for either. -/

namespace Sys2Proof.Machine

open Sys2Proof

def State.setTime (v : Word) (s : State) : State := { s with time := v }

def State.setPin (c : Channel) (v : Bool) (s : State) : State := { s with pin := s.pin.set c v }

def State.setStart (c : Channel) (v : Word) (s : State) : State := { s with start := s.start.set c v }

def State.setWidth (c : Channel) (v : Word) (s : State) : State := { s with width := s.width.set c v }

def State.setMbx (m : Option Message) (s : State) : State := { s with mbx := m }

def State.setCmd (c : MotionCommand) (s : State) : State := { s with cmd := c }

def State.setBlink (side : Side) (v : Bool) (s : State) : State := { s with blink := s.blink.set side v }

def State.setTgl (side : Side) (v : Word) (s : State) : State := { s with tgl := s.tgl.set side v }

def State.setOut (side : Side) (v : Bool) (s : State) : State := { s with out := s.out.set side v }

/-- `emit ACT_ISSUE(steer, speed)` (R9, R44). -/
def State.emit (c : MotionCommand) (s : State) : State := { s with trace := s.trace ++ [c] }

/-- Records a value an operation hands out (log 6); no register changes. -/
def State.hand (r : Result) (s : State) : State := { s with results := s.results ++ [r] }

/-- `ISSUE(st, sp)`: both targets written and one event emitted (R157). -/
def State.issue (c : MotionCommand) (s : State) : State := (s.setCmd c).emit c

/-- Takes the step to `t` where the operation is enabled; a step that is not enabled cannot be taken (R11). -/
def whenEnabled (enabled : Bool) (operation : String) (t : State) : Answer :=
  if enabled then .next t else .refused (.notEnabled operation)

end Sys2Proof.Machine
end

