-- ==== Sys2Proof/Machine/Flags.lean ====
section
/-! DEFINITION. The one-bit registers of the indicators (R28, R30, R33): what each class does to the blink
flags, the toggle times and the outputs. No operation sets a flag as a side effect of arithmetic (R33). -/

namespace Sys2Proof.Machine

open Sys2Proof

/-- Both outputs at one level and both blink flags clear (R192 with 1, R195 with 0). -/
def State.steady (level : Bool) (s : State) : State :=
  (((s.setOut .left level).setOut .right level).setBlink .left false).setBlink .right false

/-- The effect of `BLINK.TOGGLE`: the side's output complemented, its toggle time set to `t` (R196). -/
def State.toggle (side : Side) (t : Word) (s : State) : State :=
  (s.setOut side (!s.out.get side)).setTgl side t

/-- The toggle of a due side, else nothing (R193, R196). -/
def State.toggleIfDue (side : Side) (t : Word) (s : State) : State :=
  if toggleDue t (s.tgl.get side) then s.toggle side t else s

/-- Entry into a blinking class: the flag set and the toggle time reset; with `IND_ENTRY_RESET` false the
time is not reset and a due toggle happens at once (R193, D22). -/
def State.enterTurn (side : Side) (t : Word) (s : State) : State :=
  if Config.indEntryReset then (s.setBlink side true).setTgl side t
  else (s.setBlink side true).toggleIfDue side t

/-- `CLS.TURN_LEFT(t)` and `CLS.TURN_RIGHT(t)`: the other side forced OFF, then entry or the blink timer
(R193, R194). -/
def State.turn (side : Side) (t : Word) (s : State) : State :=
  let s1 := (s.setOut side.other false).setBlink side.other false
  if s1.blink.get side then s1.toggleIfDue side t else s1.enterTurn side t

end Sys2Proof.Machine
end

