-- ==== Sys2Proof/Machine/Indicator.lean ====
section
/-! DEFINITION. The Indicator Controller (44_indicator.md). -/

namespace Sys2Proof.Machine

open Sys2Proof

/-- `CLS.REVERSING` (R192). -/
def execClsReversing (s : State) : Answer :=
  whenEnabled (decide (classOf s.cmd = .reversing)) "CLS.REVERSING" (s.steady true)

/-- `CLS.TURN_LEFT(t)` (R193). -/
def execClsTurnLeft (t : Word) (s : State) : Answer :=
  whenEnabled (decide (classOf s.cmd = .turn .left)) "CLS.TURN_LEFT" (s.turn .left t)

/-- `CLS.TURN_RIGHT(t)` (R194). -/
def execClsTurnRight (t : Word) (s : State) : Answer :=
  whenEnabled (decide (classOf s.cmd = .turn .right)) "CLS.TURN_RIGHT" (s.turn .right t)

/-- `CLS.NEUTRAL` (R195). -/
def execClsNeutral (s : State) : Answer :=
  whenEnabled (decide (classOf s.cmd = .neutral)) "CLS.NEUTRAL" (s.steady false)

/-- `BLINK.TOGGLE` (R196): the side's class is selected, it was already blinking, and 200000 ticks or more
have passed since its toggle time. -/
def execBlinkToggle (side : Side) (t : Word) (s : State) : Answer :=
  whenEnabled
    (decide (classOf s.cmd = .turn side) && s.blink.get side && toggleDue t (s.tgl.get side))
    "BLINK.TOGGLE" (s.toggle side t)

/-- `INDICATE(t)`, phase 3 of every `CYCLE` (R190). -/
def State.indicate (t : Word) (s : State) : State :=
  match classOf s.cmd with
  | .reversing => s.steady true
  | .turn side => s.turn side t
  | .neutral => s.steady false

end Sys2Proof.Machine
end

