-- ==== Sys2Proof/Machine/Mapper.lean ====
section
/-! DEFINITION. The Deviation Mapper (43_mapper.md): one row function per bucket, the map over them, and the
ten `MAP` sub-operations. A row reads no register and writes none: its result is handed to the caller (R170). -/

namespace Sys2Proof.Machine

open Sys2Proof

/-- The proportional law of R172 and R173, over the integers (R183). -/
def propSteer (d : Int) : Target :=
  targetOfInt (clamp (Config.mapCenter - Config.mapGain * d) Config.propMin Config.propMax)

/-- R171. -/
def rowStop : Option MotionCommand := some ⟨Config.stopSteer, Config.stopSpeed⟩

/-- R172. -/
def rowPropPos (d : Int) : Option MotionCommand := some ⟨propSteer d, Config.propSpeed⟩

/-- R173: the same formula. -/
def rowPropNeg (d : Int) : Option MotionCommand := some ⟨propSteer d, Config.propSpeed⟩

/-- R174. -/
def rowLockPos : Option MotionCommand := some ⟨Config.lockSteerPos, Config.lockSpeed⟩

/-- R175. -/
def rowLockNeg : Option MotionCommand := some ⟨Config.lockSteerNeg, Config.lockSpeed⟩

/-- R176. -/
def rowRevPos : Option MotionCommand := some ⟨Config.revSteerPos, Config.revSpeed⟩

/-- R177. -/
def rowRevNeg : Option MotionCommand := some ⟨Config.revSteerNeg, Config.revSpeed⟩

/-- R178. -/
def rowFullrevPos : Option MotionCommand := some ⟨Config.revSteerPos, Config.fullrevSpeed⟩

/-- R179. -/
def rowFullrevNeg : Option MotionCommand := some ⟨Config.revSteerNeg, Config.fullrevSpeed⟩

/-- R180: no command. -/
def rowZero : Option MotionCommand := none

/-- `MAP(kind, d)` (R170). -/
def mapMessage (msg : Message) : Option MotionCommand :=
  match msg with
  | .stop => rowStop
  | .dev d =>
    match bucketOf (.dev d) with
    | .stop => rowStop
    | .propPos => rowPropPos d
    | .propNeg => rowPropNeg d
    | .lockPos => rowLockPos
    | .lockNeg => rowLockNeg
    | .revPos => rowRevPos
    | .revNeg => rowRevNeg
    | .fullrevPos => rowFullrevPos
    | .fullrevNeg => rowFullrevNeg
    | .zero => rowZero

/-- A `MAP` row selected for `msg`: its result is handed out. -/
def State.mapRow (b : Bucket) (msg : Message) (r : Option MotionCommand) (operation : String) (s : State) :
    Answer :=
  whenEnabled (decide (bucketOf msg = b)) operation (s.hand (.command r))

/-- `MAP.STOP` (R171). -/
def execMapStop (s : State) : Answer := s.mapRow .stop .stop rowStop "MAP.STOP"

/-- `MAP.PROP_POS` (R172). -/
def execMapPropPos (d : Int) (s : State) : Answer :=
  s.mapRow .propPos (.dev d) (rowPropPos d) "MAP.PROP_POS"

/-- `MAP.PROP_NEG` (R173). -/
def execMapPropNeg (d : Int) (s : State) : Answer :=
  s.mapRow .propNeg (.dev d) (rowPropNeg d) "MAP.PROP_NEG"

/-- `MAP.LOCK_POS` (R174). -/
def execMapLockPos (d : Int) (s : State) : Answer :=
  s.mapRow .lockPos (.dev d) rowLockPos "MAP.LOCK_POS"

/-- `MAP.LOCK_NEG` (R175). -/
def execMapLockNeg (d : Int) (s : State) : Answer :=
  s.mapRow .lockNeg (.dev d) rowLockNeg "MAP.LOCK_NEG"

/-- `MAP.REV_POS` (R176). -/
def execMapRevPos (d : Int) (s : State) : Answer :=
  s.mapRow .revPos (.dev d) rowRevPos "MAP.REV_POS"

/-- `MAP.REV_NEG` (R177). -/
def execMapRevNeg (d : Int) (s : State) : Answer :=
  s.mapRow .revNeg (.dev d) rowRevNeg "MAP.REV_NEG"

/-- `MAP.FULLREV_POS` (R178). -/
def execMapFullrevPos (d : Int) (s : State) : Answer :=
  s.mapRow .fullrevPos (.dev d) rowFullrevPos "MAP.FULLREV_POS"

/-- `MAP.FULLREV_NEG` (R179). -/
def execMapFullrevNeg (d : Int) (s : State) : Answer :=
  s.mapRow .fullrevNeg (.dev d) rowFullrevNeg "MAP.FULLREV_NEG"

/-- `MAP.ZERO` (R180): the result is none. -/
def execMapZero (s : State) : Answer := s.mapRow .zero (.dev 0) rowZero "MAP.ZERO"

end Sys2Proof.Machine
end

