-- ==== Sys2Proof/Machine/Arbitration.lean ====
section
/-! DEFINITION. The control cycle and the Mode Arbitrator (42_arbitration.md). -/

namespace Sys2Proof.Machine

open Sys2Proof

/-- The mode of the present `WIDTH[MODE]` (R85). -/
def State.mode (s : State) : Mode := modeOf (s.width.get .mode)

/-- The effect of `MANUAL(st, h)`: the clamped pair is issued (R154). -/
def State.manual (st h : Word) (s : State) : State :=
  s.issue ⟨clampWidth st Config.steerMin Config.steerMax, clampWidth h Config.speedMin Config.speedMax⟩

/-- The effect of `AUTO.CONSUME` on the message it finds: the mailbox emptied, the map asked, and what it
gives issued, if anything (R155). -/
def State.consume (msg : Message) (s : State) : State :=
  let s1 := (s.setMbx none).hand (.command (mapMessage msg))
  match mapMessage msg with
  | some c => s1.issue c
  | none => s1

/-- `SEL.AUTO` (R152): the choice is handed to the cycle, no register is written. -/
def execSelAuto (m : Word) (s : State) : Answer :=
  whenEnabled (decide (modeOf m = .autonomous)) "SEL.AUTO" (s.hand (.mode .autonomous))

/-- `SEL.MANUAL` (R153). -/
def execSelManual (m : Word) (s : State) : Answer :=
  whenEnabled (decide (modeOf m = .manual)) "SEL.MANUAL" (s.hand (.mode .manual))

/-- `MANUAL(st, h)` (R154), in manual mode (R86). -/
def execManual (st h : Word) (s : State) : Answer :=
  whenEnabled (decide (s.mode = .manual)) "MANUAL" (s.manual st h)

/-- `AUTO.CONSUME` (R155), in autonomous mode with a held message (R86). -/
def execAutoConsume (s : State) : Answer :=
  match s.mbx with
  | some msg => whenEnabled (decide (s.mode = .autonomous)) "AUTO.CONSUME" (s.consume msg)
  | none => .refused (.notEnabled "AUTO.CONSUME")

/-- `AUTO.HOLD` (R156), in autonomous mode with no message: nothing changes. -/
def execAutoHold (s : State) : Answer :=
  whenEnabled (decide (s.mode = .autonomous) && s.mbx.isNone) "AUTO.HOLD" s

/-- Phase 2 of `CYCLE` on the snapshot `v` (R150). -/
def State.arbitrate (v : Snapshot) (s : State) : State :=
  match modeOf v.m with
  | .manual => (s.hand (.mode .manual)).manual v.s v.h
  | .autonomous =>
    match s.mbx with
    | some msg => (s.hand (.mode .autonomous)).consume msg
    | none => s.hand (.mode .autonomous)

/-- `CYCLE` (R150): snapshot, arbitrate, indicate; one atomic step that always completes. -/
def execCycle (s : State) : Answer := .next ((s.arbitrate s.snapshot).indicate s.snapshot.t)

end Sys2Proof.Machine
end

