-- ==== Sys2Proof/Machine/Capture.lean ====
section
/-! DEFINITION. The Channel Decoder family (40_capture.md). -/

namespace Sys2Proof.Machine

open Sys2Proof

/-- `TICK` (R110): modulo 2^32. -/
def execTick (s : State) : Answer := .next (s.setTime (s.time + 1))

/-- `RISE c` (R111). -/
def execRise (c : Channel) (s : State) : Answer :=
  whenEnabled (!s.pin.get c) "RISE" ((s.setPin c true).setStart c s.time)

/-- `FALL c` (R112): the width is the modular difference. -/
def execFall (c : Channel) (s : State) : Answer :=
  whenEnabled (s.pin.get c) "FALL" ((s.setPin c false).setWidth c (s.time - s.start.get c))

/-- `NOEDGE c` with the pin low before and after (R113): no state change. -/
def execNoedgeLow (_c : Channel) (s : State) : Answer := .next s

/-- `NOEDGE c` with the pin high before and after (R113): no state change. -/
def execNoedgeHigh (_c : Channel) (s : State) : Answer := .next s

/-- `RDW c` (R114): hands the published width to the reader; no register is written. -/
def execRdw (c : Channel) (s : State) : Answer := .next (s.hand (.width c (s.width.get c)))

end Sys2Proof.Machine
end

