-- ==== Sys2Proof/Machine/Message.lean ====
section
/-! DEFINITION. The inbound message family (41_message.md): the four effects of a `LINE` step, each enabled
only while the mailbox is empty (R130). -/

namespace Sys2Proof.Machine

open Sys2Proof

/-- A `LINE` step: enabled when `MBX_VALID` = 0; a message it accepts is held (R130). -/
def State.acceptLine (accepted : Option Message) (operation : String) (s : State) : Answer :=
  whenEnabled s.hasRoom operation
    (match accepted with
     | some m => s.setMbx (some m)
     | none => s)

/-- `MSG.S` (R131). -/
def execMsgS (s : State) : Answer := s.acceptLine (some .stop) "MSG.S"

/-- `MSG.N` (R132). -/
def execMsgN (s : State) : Answer := s.acceptLine (some .stop) "MSG.N"

/-- `MSG.D d` (R133). -/
def execMsgD (d : Int) (s : State) : Answer := s.acceptLine (some (.dev d)) "MSG.D"

/-- `MSG.IGNORE` (R134): the line is taken and dropped. -/
def execMsgIgnore (s : State) : Answer := s.acceptLine none "MSG.IGNORE"

end Sys2Proof.Machine
end

