-- ==== Sys2Proof/Machine/System.lean ====
section
/-! DEFINITION. The one system operation, `RESET` (70_reset_and_hazards.md). -/

namespace Sys2Proof.Machine

open Sys2Proof

/-- `RESET` (R240): every register at its value of R38, the pins at their present levels; no `ACT_ISSUE`
is emitted, so the histories and the environment's events stay. -/
def execReset (pins : PerChannel Bool) (s : State) : Answer :=
  .next { State.resetWith pins with
            trace := s.trace, results := s.results, inputs := s.inputs, eventNo := s.eventNo }

end Sys2Proof.Machine
end

