-- ==== Sys2Proof/Machine/Dispatch.lean ====
section
/-! DEFINITION. One arm per operation, each one direct call of its meaning. -/

namespace Sys2Proof.Machine

open Sys2Proof

def exec (i : Instr) (s : State) : Host.Outcome State Fault Refusal :=
  match i with
  | .tick => Sys2Proof.Machine.execTick s
  | .cycle => Sys2Proof.Machine.execCycle s
  | .reset pins => Sys2Proof.Machine.execReset pins s
  | .rdw c => Sys2Proof.Machine.execRdw c s
  | .rise c => Sys2Proof.Machine.execRise c s
  | .fall c => Sys2Proof.Machine.execFall c s
  | .noedgeLow c => Sys2Proof.Machine.execNoedgeLow c s
  | .noedgeHigh c => Sys2Proof.Machine.execNoedgeHigh c s
  | .msgS => Sys2Proof.Machine.execMsgS s
  | .msgN => Sys2Proof.Machine.execMsgN s
  | .msgD d => Sys2Proof.Machine.execMsgD d s
  | .msgIgnore => Sys2Proof.Machine.execMsgIgnore s
  | .selAuto m => Sys2Proof.Machine.execSelAuto m s
  | .selManual m => Sys2Proof.Machine.execSelManual m s
  | .manual st h => Sys2Proof.Machine.execManual st h s
  | .autoConsume => Sys2Proof.Machine.execAutoConsume s
  | .autoHold => Sys2Proof.Machine.execAutoHold s
  | .mapStop => Sys2Proof.Machine.execMapStop s
  | .mapPropPos d => Sys2Proof.Machine.execMapPropPos d s
  | .mapPropNeg d => Sys2Proof.Machine.execMapPropNeg d s
  | .mapLockPos d => Sys2Proof.Machine.execMapLockPos d s
  | .mapLockNeg d => Sys2Proof.Machine.execMapLockNeg d s
  | .mapRevPos d => Sys2Proof.Machine.execMapRevPos d s
  | .mapRevNeg d => Sys2Proof.Machine.execMapRevNeg d s
  | .mapFullrevPos d => Sys2Proof.Machine.execMapFullrevPos d s
  | .mapFullrevNeg d => Sys2Proof.Machine.execMapFullrevNeg d s
  | .mapZero => Sys2Proof.Machine.execMapZero s
  | .clsReversing => Sys2Proof.Machine.execClsReversing s
  | .clsTurnLeft t => Sys2Proof.Machine.execClsTurnLeft t s
  | .clsTurnRight t => Sys2Proof.Machine.execClsTurnRight t s
  | .clsNeutral => Sys2Proof.Machine.execClsNeutral s
  | .blinkToggle side t => Sys2Proof.Machine.execBlinkToggle side t s

end Sys2Proof.Machine
end

