-- ==== Sys2Proof/Machine/Fetch.lean ====
section
/-! DEFINITION. Where the next step's event comes from: the block fetches no instruction (R32, R72); the
environment brings one event a step, in any order (R11, R67). -/

namespace Sys2Proof.Machine

open Sys2Proof

/-- The environment can cause the event in this state (R11): a pin event carries the pin's present level as
its `p` (R81), a line is transferred only while the mailbox has room (R40, R130), an index names a channel
(R62); the other events can always come. -/
def State.canHappen (s : State) (e : Input) : Bool :=
  match e with
  | .tick => true
  | .cycleGo => true
  | .rst _ => true
  | .rdw sel => (Channel.ofIndex sel).isSome
  | .pin code =>
    match Channel.ofIndex (code.extractLsb' 2 3) with
    | some c => code.getLsbD 1 == s.pin.get c
    | none => false
  | .line _ => s.hasRoom

/-- The environment's free choice; a free event that cannot happen now stands for a `TICK` (log 1). -/
def State.freeInput (s : State) : Input :=
  if s.canHappen (Config.environment s.eventNo) then Config.environment s.eventNo else .tick

/-- The next event: the first one lined up that can happen now, else the environment's free choice. -/
def State.nextInput (s : State) : Input := (s.inputs.find? s.canHappen).getD s.freeInput

/-- The state once that event has been taken: the events that cannot happen yet go on waiting (R250, U6), and
no register changes. -/
def State.afterFetch (s : State) : State :=
  match s.inputs.find? s.canHappen with
  | some _ => { s with inputs := s.inputs.eraseP s.canHappen }
  | none => { s with eventNo := s.eventNo + 1 }

/-- What an event says of the state before it: a pin code's `p` is the level before (R81), and a line is
transferred only while the mailbox is empty (R130, R40). -/
def State.readyFor (e : Input) (s : State) : State :=
  match e with
  | .pin code =>
    match Channel.ofIndex (code.extractLsb' 2 3) with
    | some c => s.setPin c (code.getLsbD 1)
    | none => s
  | .line _ => s.setMbx none
  | .tick => s
  | .cycleGo => s
  | .rst _ => s
  | .rdw _ => s

/-- `s` with `e` as its next event. -/
def State.placeInput (e : Input) (s : State) : State :=
  { s.readyFor e with inputs := e :: s.inputs }

/-- `s` with the event a table word stands for as its next; a row of no bits places none. -/
def State.placeTableWord (nbits w : Nat) (s : State) : State :=
  match tableInput nbits w with
  | some e => s.placeInput e
  | none => s

end Sys2Proof.Machine
end

