-- ==== Sys2Proof/Machine/Step.lean ====
section
/-! DEFINITION. One step: the next event of the environment, decoded and run (R4, R11). -/

namespace Sys2Proof.Machine

open Sys2Proof

def step (s : State) : Host.Outcome State Fault Refusal :=
  match decodeInput s.nextInput with
  | .ok i => exec i s.afterFetch
  | .error why => .refused (.notDecoded why)

/-- `s` with the table's word as the very next event, and what that event says of the state before it: the
pin's level for a pin code, an empty mailbox for a line (log 2). -/
def State.withFetchWord (s : State) (nbits w : Nat) : State := s.placeTableWord nbits w

end Sys2Proof.Machine
end

