-- ==== Sys2Proof/Machine/Ports.lean ====
section
/-! DEFINITION. The output ports, functions of the state (R41). `act_strobe` is the growth of
`State.trace` (R44). -/

namespace Sys2Proof.Machine

open Sys2Proof

/-- `act_steer`: always `CMD_STEER`. -/
def State.actSteer (s : State) : Target := s.cmd.steer

/-- `act_speed`: always `CMD_SPEED`. -/
def State.actSpeed (s : State) : Target := s.cmd.speed

/-- `led_l`: always `OUT_L`, active high (R30). -/
def State.ledL (s : State) : Bool := s.out.left

/-- `led_r`: always `OUT_R`. -/
def State.ledR (s : State) : Bool := s.out.right

/-- `line_ready`: always not `MBX_VALID`. -/
def State.lineReady (s : State) : Bool := s.mbx.isNone

/-- `rdw_data` for a selection: the width of the channel it names, a free value where it names none (U7). -/
def State.rdwData (sel : BitVec 3) (s : State) : Word :=
  match Channel.ofIndex sel with
  | some c => s.width.get c
  | none => Config.rdwUnspecified sel s.width

end Sys2Proof.Machine
end

