-- ==== Sys2Proof/Machine/Stimulus.lean ====
section
/-! DEFINITION. The stimulus notation's steps and pseudo-operations as lists of input events (R92, R93). A
list is what `State.inputs` holds: the steps to come, next first. -/

namespace Sys2Proof.Machine

open Sys2Proof

/-- `rise C`. -/
def riseOf (c : Channel) : List Input := [.pin (encodePin c false true)]

/-- `fall C`. -/
def fallOf (c : Channel) : List Input := [.pin (encodePin c true false)]

/-- `ticks N`: N times `tick`. -/
def ticks (n : Nat) : List Input := List.replicate n .tick

/-- `pulse C, W`: `rise C`, `ticks W`, `fall C`. -/
def pulse (c : Channel) (w : Nat) : List Input := riseOf c ++ ticks w ++ fallOf c

/-- `at T`: `ticks (T -% TIME)`, until `TIME` = T. -/
def ticksUntil (t : Word) (s : State) : List Input := ticks (t - s.time).toNat

/-- `msg D`: a line `D:` and the decimal of D. -/
def msg (d : Int) : List Input := [.line (0x44#8 :: 0x3A#8 :: encodeInteger d)]

/-- `stop`: the line `S`. -/
def stop : List Input := [.line [0x53#8]]

/-- `cycles N every P`: N times (`ticks P`, `cycle`). -/
def cyclesEvery : Nat → Nat → List Input
  | 0, _ => []
  | n + 1, p => ticks p ++ [.cycleGo] ++ cyclesEvery n p

end Sys2Proof.Machine
end

