-- ==== Sys2Proof/Safety.lean ====
section
/-! DEFINITION. What claims are stated in: when an operation is enabled, who performs it, the invariants of
R39 and R199, and runs. Written from the rules, apart from the meanings they are held against. -/

namespace Sys2Proof.Machine

open Sys2Proof

/-- The enabling or selecting condition of each operation's rule (R11): R110 to R114, R130, R150 to R156,
R171 to R180, R192 to R196, R240. -/
def Enabled : Instr → State → Prop
  | .tick, _ => True
  | .cycle, _ => True
  | .reset _, _ => True
  | .rdw _, _ => True
  | .rise c, s => s.pin.get c = false
  | .fall c, s => s.pin.get c = true
  | .noedgeLow _, _ => True
  | .noedgeHigh _, _ => True
  | .msgS, s => s.mbx = none
  | .msgN, s => s.mbx = none
  | .msgD _, s => s.mbx = none
  | .msgIgnore, s => s.mbx = none
  | .selAuto m, _ => 1500 < m.toNat
  | .selManual m, _ => m.toNat ≤ 1500
  | .manual _ _, s => (s.width.get .mode).toNat ≤ 1500
  | .autoConsume, s => 1500 < (s.width.get .mode).toNat ∧ s.mbx ≠ none
  | .autoHold, s => 1500 < (s.width.get .mode).toNat ∧ s.mbx = none
  | .mapStop, _ => True
  | .mapPropPos d, _ => 0 < d ∧ d < 40
  | .mapPropNeg d, _ => -40 < d ∧ d < 0
  | .mapLockPos d, _ => 40 ≤ d ∧ d < 80
  | .mapLockNeg d, _ => -80 < d ∧ d ≤ -40
  | .mapRevPos d, _ => 80 ≤ d ∧ d < 100
  | .mapRevNeg d, _ => -100 < d ∧ d ≤ -80
  | .mapFullrevPos d, _ => 100 ≤ d
  | .mapFullrevNeg d, _ => d ≤ -100
  | .mapZero, _ => True
  | .clsReversing, s => s.cmd.speed.toNat < 1500
  | .clsTurnLeft _, s => 1500 ≤ s.cmd.speed.toNat ∧ s.cmd.steer.toNat < 1450
  | .clsTurnRight _, s => 1500 ≤ s.cmd.speed.toNat ∧ 1550 < s.cmd.steer.toNat
  | .clsNeutral, s =>
    1500 ≤ s.cmd.speed.toNat ∧ 1450 ≤ s.cmd.steer.toNat ∧ s.cmd.steer.toNat ≤ 1550
  | .blinkToggle .left t, s =>
    (1500 ≤ s.cmd.speed.toNat ∧ s.cmd.steer.toNat < 1450) ∧ s.blink.left = true ∧
      200000 ≤ (t - s.tgl.left).toNat
  | .blinkToggle .right t, s =>
    (1500 ≤ s.cmd.speed.toNat ∧ 1550 < s.cmd.steer.toNat) ∧ s.blink.right = true ∧
      200000 ≤ (t - s.tgl.right).toNat

/-- The nine agents of R222 and the environment, which performs `RESET`. -/
inductive Agent where
  | timeBase
  | capture (c : Channel)
  | linePort
  | controlCycle
  | consumers
  | environment
  deriving DecidableEq, Repr

/-- The only performer of an operation (R222). -/
def agentOf : Instr → Agent
  | .tick => .timeBase
  | .cycle => .controlCycle
  | .reset _ => .environment
  | .rdw _ => .consumers
  | .rise c => .capture c
  | .fall c => .capture c
  | .noedgeLow c => .capture c
  | .noedgeHigh c => .capture c
  | .msgS => .linePort
  | .msgN => .linePort
  | .msgD _ => .linePort
  | .msgIgnore => .linePort
  | .selAuto _ => .controlCycle
  | .selManual _ => .controlCycle
  | .manual _ _ => .controlCycle
  | .autoConsume => .controlCycle
  | .autoHold => .controlCycle
  | .mapStop => .controlCycle
  | .mapPropPos _ => .controlCycle
  | .mapPropNeg _ => .controlCycle
  | .mapLockPos _ => .controlCycle
  | .mapLockNeg _ => .controlCycle
  | .mapRevPos _ => .controlCycle
  | .mapRevNeg _ => .controlCycle
  | .mapFullrevPos _ => .controlCycle
  | .mapFullrevNeg _ => .controlCycle
  | .mapZero => .controlCycle
  | .clsReversing => .controlCycle
  | .clsTurnLeft _ => .controlCycle
  | .clsTurnRight _ => .controlCycle
  | .clsNeutral => .controlCycle
  | .blinkToggle _ _ => .controlCycle

/-- The bounds of every command the block holds or issues (R39 (1), R157). -/
def Bounded (c : MotionCommand) : Prop :=
  1000 ≤ c.steer.toNat ∧ c.steer.toNat ≤ 2000 ∧ 1430 ≤ c.speed.toNat ∧ c.speed.toNat ≤ 1560

/-- The held command and every command ever issued are bounded (R39 (1), R157). -/
def CommandsBounded (s : State) : Prop := Bounded s.cmd ∧ ∀ c ∈ s.trace, Bounded c

/-- The table of R199: what flags and outputs show in the class of the held command. -/
def IndicatorTable (s : State) : Prop :=
  if s.cmd.speed.toNat < 1500 then s.out = ⟨true, true⟩ ∧ s.blink = ⟨false, false⟩
  else if s.cmd.steer.toNat < 1450 then s.out.right = false ∧ s.blink = ⟨true, false⟩
  else if 1550 < s.cmd.steer.toNat then s.out.left = false ∧ s.blink = ⟨false, true⟩
  else s.out = ⟨false, false⟩ ∧ s.blink = ⟨false, false⟩

/-- Runs operations one after the other, stopping at the first that is not taken. -/
def runAll : List Instr → State → Answer
  | [], s => .next s
  | i :: is, s =>
    match exec i s with
    | .next t => runAll is t
    | .fault r => .fault r
    | .refused r => .refused r

/-- Takes `n` steps of the machine, stopping at the first that is not taken. -/
def runSteps : Nat → State → Answer
  | 0, s => .next s
  | n + 1, s =>
    match step s with
    | .next t => runSteps n t
    | .fault r => .fault r
    | .refused r => .refused r

/-- The operations that touch the capture registers of channel `c`: its two edges, and reset. -/
def touchesChannel (c : Channel) (i : Instr) : Bool :=
  match i with
  | .rise c' => decide (c' = c)
  | .fall c' => decide (c' = c)
  | .reset _ => true
  | _ => false

end Sys2Proof.Machine
end

