-- ==== Sys2Proof/Certificates/Slice0/Obligations.lean ====
section
/-! DEFINITION. The statements for the provers, one definition each; what each rests on stands in
OBLIGATIONS.json. -/

open Sys2Proof Sys2Proof.Machine

/-- O1. A step runs the operation its event decodes to (00_scope.md section 5 (R11), 30_encoding.md section
1 (R80), assumption log 1, assumption log 20). -/
def Obligations.StepRunsDecodedEvent : Prop :=
  (∀ (s : State) (waiting rest : List Input) (e : Input) (i : Instr),
    s.inputs = waiting ++ e :: rest → (∀ x ∈ waiting, s.canHappen x = false) → s.canHappen e = true →
    decodeInput e = .ok i → step s = exec i { s with inputs := waiting ++ rest }) ∧
  (∀ s : State, (∀ x ∈ s.inputs, s.canHappen x = false) →
    ∃ i, decodeInput (if s.canHappen (Config.environment s.eventNo) = true
        then Config.environment s.eventNo else .tick) = .ok i ∧
      step s = exec i { s with eventNo := s.eventNo + 1 })

/-- O2. Codes written out from the spec decode to their operations (30_encoding.md section 1 (R80),
30_encoding.md section 2 (R81), 30_encoding.md section 3 (R82, R83, R84), 30_encoding.md section 5 (R85,
R86, R87, R88), 30_encoding.md section 6 (R89), 10_state.md section 2 (R25), assumption log 9, assumption
log 10). -/
def Obligations.SampleCodesDecode : Prop :=
  decodeInput (.pin 0b01001#5) = .ok (.rise .mode) ∧
  decodeInput (.pin 0b00110#5) = .ok (.fall .throttle) ∧
  decodeInput (.pin 0b10000#5) = .ok (.noedgeLow .aux2) ∧
  decodeInput (.pin 0b01111#5) = .ok (.noedgeHigh .aux1) ∧
  decodeInput .tick = .ok .tick ∧
  decodeInput .cycleGo = .ok .cycle ∧
  decodeInput (.rst ⟨false, false, true, false, false⟩) = .ok (.reset ⟨false, false, true, false, false⟩) ∧
  decodeInput (.rdw 4) = .ok (.rdw .aux2) ∧
  decodeInput (.line [0x20#8, 0x53#8, 0x0D#8, 0x0A#8]) = .ok .msgS ∧
  decodeInput (.line [0x09#8, 0x4E#8, 0x20#8, 0x0A#8]) = .ok .msgN ∧
  decodeInput (.line [0x44#8, 0x3A#8, 0x2D#8, 0x34#8, 0x35#8]) = .ok (.msgD (-45)) ∧
  decodeInput (.line [0x58#8, 0x3A#8, 0x61#8, 0x62#8, 0x63#8]) = .ok .msgIgnore ∧
  decodeSelector (.mode 1501) = .ok (.selAuto 1501) ∧
  decodeSelector (.phase .autonomous true 0 0) = .ok .autoConsume ∧
  decodeSelector (.dev (.dev 40)) = .ok (.mapLockPos 40) ∧
  decodeSelector (.ind ⟨1449, 1500⟩ 7) = .ok (.clsTurnLeft 7) ∧
  decodeTableWord 8 0x01 = some (.rise .steer) ∧
  decodeTableWord 8 0x53 = some .msgS

/-- O3. A pin code is channel, previous level, new level (R81). -/
def Obligations.PinCodesDecode : Prop :=
  ∀ code : BitVec 5,
    (∀ c : Channel, code.toNat / 4 = c.index.toNat →
      decodeInput (.pin code) = .ok (match code.toNat % 4 with
        | 0 => .noedgeLow c
        | 1 => .rise c
        | 2 => .fall c
        | _ => .noedgeHigh c)) ∧
    (5 ≤ code.toNat / 4 → ∀ i, decodeInput (.pin code) ≠ .ok i) ∧
    (∀ c : Channel, c.index.toNat =
      match c with | .steer => 0 | .throttle => 1 | .mode => 2 | .aux1 => 3 | .aux2 => 4)

/-- O4. A line is trimmed of whitespace at both ends (R82). -/
def Obligations.TrimRemovesBothEnds : Prop :=
  ∀ b : List Byte, ∃ p q : List Byte, b = p ++ trim b ++ q ∧
    (∀ x ∈ p ++ q, x ∈ [0x09#8, 0x0A#8, 0x0B#8, 0x0C#8, 0x0D#8, 0x20#8]) ∧
    (∀ x, (trim b).head? = some x → x ∉ [0x09#8, 0x0A#8, 0x0B#8, 0x0C#8, 0x0D#8, 0x20#8]) ∧
    (∀ x, (trim b).getLast? = some x → x ∉ [0x09#8, 0x0A#8, 0x0B#8, 0x0C#8, 0x0D#8, 0x20#8])

/-- O5. The signed integers are exactly sign and decimal digits (R84). -/
def Obligations.SignedIntegersAreRead : Prop :=
  ∀ (v : List Byte) (d : Int), decodeInteger v = some d ↔
    ∃ (sign : List Byte) (ds : List Nat), ds ≠ [] ∧ (∀ k ∈ ds, k ≤ 9) ∧
      v = sign ++ ds.map (fun k => BitVec.ofNat 8 (0x30 + k)) ∧
      ((sign = [] ∨ sign = [0x2B#8]) ∧ d = (Nat.ofDigits 10 ds.reverse : Nat) ∨
        sign = [0x2D#8] ∧ d = -((Nat.ofDigits 10 ds.reverse : Nat) : Int))

/-- O6. A trimmed line decodes by the four rows (R83). -/
def Obligations.LinesDecodeByFirstRow : Prop :=
  ∀ b : List Byte,
    (trim b = [0x53#8] → decodeLine b = .msgS) ∧
    (trim b = [0x4E#8] → decodeLine b = .msgN) ∧
    (∀ v d, trim b = 0x44#8 :: 0x3A#8 :: v → decodeInteger v = some d → decodeLine b = .msgD d) ∧
    (trim b ≠ [0x53#8] → trim b ≠ [0x4E#8] →
      (∀ v d, trim b = 0x44#8 :: 0x3A#8 :: v → decodeInteger v ≠ some d) → decodeLine b = .msgIgnore)

/-- O7. Decoding the code of a well-formed operation gives it back (30_encoding.md (R80 to R89), assumption
log 9). -/
def Obligations.DecodeEncode : Prop :=
  ∀ i : Instr, WellFormed i → decode (encode i) = .ok i

/-- O8. Whatever decodes is well formed (30_encoding.md section 5 (R85, R87), assumption log 9). -/
def Obligations.DecodedIsWellFormed : Prop :=
  ∀ (q : Code) (i : Instr), decode q = .ok i → WellFormed i

/-- O9. The mode and the path of a cycle (R85, R86). -/
def Obligations.ModeAndPhaseSelection : Prop :=
  (∀ m : Word, decodeSelector (.mode m) =
    .ok (if 1500 < m.toNat then .selAuto m else .selManual m)) ∧
  (∀ (valid : Bool) (s h : Word), decodeSelector (.phase .manual valid s h) = .ok (.manual s h)) ∧
  (∀ s h : Word, decodeSelector (.phase .autonomous true s h) = .ok .autoConsume) ∧
  (∀ s h : Word, decodeSelector (.phase .autonomous false s h) = .ok .autoHold)

/-- O10. The row of a held message (R87). -/
def Obligations.DevRowsSelect : Prop :=
  decodeSelector (.dev .stop) = .ok .mapStop ∧
  ∀ d : Int,
    (d ≤ -100 → decodeSelector (.dev (.dev d)) = .ok (.mapFullrevNeg d)) ∧
    (-99 ≤ d → d ≤ -80 → decodeSelector (.dev (.dev d)) = .ok (.mapRevNeg d)) ∧
    (-79 ≤ d → d ≤ -40 → decodeSelector (.dev (.dev d)) = .ok (.mapLockNeg d)) ∧
    (-39 ≤ d → d ≤ -1 → decodeSelector (.dev (.dev d)) = .ok (.mapPropNeg d)) ∧
    (d = 0 → decodeSelector (.dev (.dev d)) = .ok .mapZero) ∧
    (1 ≤ d → d ≤ 39 → decodeSelector (.dev (.dev d)) = .ok (.mapPropPos d)) ∧
    (40 ≤ d → d ≤ 79 → decodeSelector (.dev (.dev d)) = .ok (.mapLockPos d)) ∧
    (80 ≤ d → d ≤ 99 → decodeSelector (.dev (.dev d)) = .ok (.mapRevPos d)) ∧
    (100 ≤ d → decodeSelector (.dev (.dev d)) = .ok (.mapFullrevPos d))

/-- O11. The indicator class of a command (R191). -/
def Obligations.ClassSelection : Prop :=
  ∀ (cmd : MotionCommand) (t : Word),
    (cmd.speed.toNat < 1500 → decodeSelector (.ind cmd t) = .ok .clsReversing) ∧
    (1500 ≤ cmd.speed.toNat → cmd.steer.toNat < 1450 →
      decodeSelector (.ind cmd t) = .ok (.clsTurnLeft t)) ∧
    (1500 ≤ cmd.speed.toNat → 1550 < cmd.steer.toNat →
      decodeSelector (.ind cmd t) = .ok (.clsTurnRight t)) ∧
    (1500 ≤ cmd.speed.toNat → 1450 ≤ cmd.steer.toNat → cmd.steer.toNat ≤ 1550 →
      decodeSelector (.ind cmd t) = .ok .clsNeutral)

/-- O12. TICK advances TIME modulo 2^32 and nothing else (R110). -/
def Obligations.TickCountsModulo : Prop :=
  ∀ s : State, ∃ t, exec .tick s = .next t ∧
    t.time.toNat = (s.time.toNat + 1) % 4294967296 ∧ t = { s with time := t.time }

/-- O13. RISE c stamps the pulse start (R111). -/
def Obligations.RiseStampsTheEdge : Prop :=
  ∀ (c : Channel) (s : State), s.pin.get c = false →
    ∃ t, exec (.rise c) s = .next t ∧ t.pin.get c = true ∧ t.start.get c = s.time ∧
      (∀ d, d ≠ c → t.pin.get d = s.pin.get d ∧ t.start.get d = s.start.get d) ∧
      t = { s with pin := t.pin, start := t.start }

/-- O14. FALL c publishes the modular width (R112). -/
def Obligations.FallPublishesTheWidth : Prop :=
  ∀ (c : Channel) (s : State), s.pin.get c = true →
    ∃ t, exec (.fall c) s = .next t ∧ t.pin.get c = false ∧
      (t.width.get c).toNat =
        (4294967296 + s.time.toNat - (s.start.get c).toNat) % 4294967296 ∧
      (∀ d, d ≠ c → t.pin.get d = s.pin.get d ∧ t.width.get d = s.width.get d) ∧
      t = { s with pin := t.pin, width := t.width }

/-- O15. NOEDGE c changes no state; that it is taken whatever PIN[c] holds is the model's choice
(40_capture.md section 4 (R113), assumption log 15). -/
def Obligations.NoedgeChangesNothing : Prop :=
  ∀ (c : Channel) (s : State),
    exec (.noedgeLow c) s = .next s ∧ exec (.noedgeHigh c) s = .next s

/-- O16. RDW c hands out the published width and writes no register (40_capture.md section 5 (R114),
20_memory.md section 4 (R64), assumption log 6). -/
def Obligations.RdwReadsTheWidth : Prop :=
  ∀ (c : Channel) (s : State), ∃ t, exec (.rdw c) s = .next t ∧
    t.results = s.results ++ [.width c (s.width.get c)] ∧ t = { s with results := t.results }

/-- O17. A published width is the number of ticks between the two edges (40_capture.md section 6 (R115),
20_memory.md section 6 (R69)). -/
def Obligations.PulseWidthIsTheTickCount : Prop :=
  ∀ (c : Channel) (s t : State) (is : List Instr),
    s.pin.get c = false → (∀ i ∈ is, touchesChannel c i = false) →
    is.count .tick < 4294967296 →
    runAll (.rise c :: is ++ [.fall c]) s = .next t →
    (t.width.get c).toNat = is.count .tick

/-- O18. The stimulus pulse C, W publishes W (30_encoding.md section 9 (R93), 40_capture.md (R111, R112),
assumption log 1). -/
def Obligations.PulseNotationPublishes : Prop :=
  ∀ (c : Channel) (w : Nat) (s : State) (rest : List Input),
    s.pin.get c = false → w < 4294967296 → s.inputs = pulse c w ++ rest →
    ∃ t, runSteps (w + 2) s = .next t ∧ (t.width.get c).toNat = w ∧
      t.time.toNat = (s.time.toNat + w) % 4294967296 ∧ t.pin.get c = false ∧ t.inputs = rest ∧
      (∀ d, d ≠ c → t.width.get d = s.width.get d) ∧ t.cmd = s.cmd ∧ t.mbx = s.mbx

/-- O19. The first falling edge after a reset with the pin high publishes the time since reset
(70_reset_and_hazards.md section 3 (R244), 40_capture.md section 3 (R112 case 3)). -/
def Obligations.FirstFallAfterReset : Prop :=
  ∀ (c : Channel) (pins : PerChannel Bool) (n : Nat) (s : State), pins.get c = true →
    ∃ t, runAll (.reset pins :: List.replicate n .tick ++ [.fall c]) s = .next t ∧
      (t.width.get c).toNat = n % 4294967296

/-- O20. A width changes only at the falling edge of its channel or at reset (40_capture.md section 6
(R117), 70_reset_and_hazards.md section 3 (R245)). -/
def Obligations.WidthFreezesWithoutFall : Prop :=
  ∀ (c : Channel) (is : List Instr) (s t : State),
    (∀ i ∈ is, i ≠ .fall c ∧ ∀ pins, i ≠ .reset pins) → runAll is s = .next t →
    t.width.get c = s.width.get c

/-- O21. Capture steps of different channels commute (20_memory.md section 6 (R69), 60_exceptions.md section
3 (R216)). -/
def Obligations.CaptureStepsCommute : Prop :=
  ∀ (c d : Channel) (i j : Instr) (s t : State), c ≠ d →
    (i = .rise c ∨ i = .fall c) → (j = .rise d ∨ j = .fall d) →
    runAll [i, j] s = .next t → runAll [j, i] s = .next t

/-- O22. MSG.S, MSG.N and MSG.D d put their message in an empty mailbox (R131, R132, R133). -/
def Obligations.ValidLinesAreHeld : Prop :=
  ∀ s : State, s.mbx = none →
    exec .msgS s = .next { s with mbx := some .stop } ∧
    exec .msgN s = .next { s with mbx := some .stop } ∧
    ∀ d : Int, exec (.msgD d) s = .next { s with mbx := some (.dev d) }

/-- O23. MSG.IGNORE takes the line and changes nothing (R134). -/
def Obligations.IgnoredLineChangesNothing : Prop :=
  ∀ s : State, s.mbx = none → exec .msgIgnore s = .next s

/-- O24. A LINE step parses at delivery, and a line waits while a message is held (41_message.md section 1
(R130), 00_scope.md section 5 (R11), 70_reset_and_hazards.md section 3 (R250), assumption log 20). -/
def Obligations.LineStepParsesOrWaits : Prop :=
  ∀ (s : State) (b : List Byte) (rest : List Input), s.inputs = .line b :: rest →
    (s.mbx = none →
      (decodeLine b = .msgS → step s = .next { s with inputs := rest, mbx := some .stop }) ∧
      (decodeLine b = .msgN → step s = .next { s with inputs := rest, mbx := some .stop }) ∧
      (∀ d, decodeLine b = .msgD d →
        step s = .next { s with inputs := rest, mbx := some (.dev d) }) ∧
      (decodeLine b = .msgIgnore → step s = .next { s with inputs := rest })) ∧
    (s.mbx ≠ none → ∃ (t : State) (more : List Input), step s = .next t ∧ t.inputs = .line b :: more)

/-- O25. A held message is kept until an autonomous cycle consumes it or reset discards it (41_message.md
section 3 (R136, R138), 10_state.md section 4 (R37)). -/
def Obligations.HeldMessageLeavesOnlyByConsumption : Prop :=
  ∀ (i : Instr) (s t : State) (m : Message), s.mbx = some m → exec i s = .next t →
    t.mbx = some m ∨
      t.mbx = none ∧
        (((i = .cycle ∨ i = .autoConsume) ∧ 1500 < (s.width.get .mode).toNat) ∨
          ∃ pins, i = .reset pins)

/-- O26. SEL.AUTO and SEL.MANUAL choose the path and write no register (42_arbitration.md section 2 (R152,
R153), assumption log 6). -/
def Obligations.SelectionCompletes : Prop :=
  ∀ (m : Word) (s : State),
    (1500 < m.toNat →
      exec (.selAuto m) s = .next { s with results := s.results ++ [.mode .autonomous] }) ∧
    (m.toNat ≤ 1500 →
      exec (.selManual m) s = .next { s with results := s.results ++ [.mode .manual] })

/-- O27. MANUAL issues the clamped widths (R154). -/
def Obligations.ManualIssuesTheClampedPair : Prop :=
  ∀ (st h : Word) (s : State), (s.width.get .mode).toNat ≤ 1500 →
    ∃ c : MotionCommand,
      c.steer.toNat = max 1000 (min st.toNat 2000) ∧ c.speed.toNat = max 1440 (min h.toNat 1560) ∧
      exec (.manual st h) s = .next { s with cmd := c, trace := s.trace ++ [c] }

/-- O28. AUTO.CONSUME empties the mailbox and issues what the map gives (R155). -/
def Obligations.ConsumeIssuesWhatTheMapGives : Prop :=
  ∀ (m : Message) (s : State), 1500 < (s.width.get .mode).toNat → s.mbx = some m →
    ∃ t, exec .autoConsume s = .next t ∧ t.mbx = none ∧
      (∀ c, mapMessage m = some c → t.cmd = c ∧ t.trace = s.trace ++ [c]) ∧
      (mapMessage m = none → t.cmd = s.cmd ∧ t.trace = s.trace) ∧
      t = { s with mbx := t.mbx, cmd := t.cmd, trace := t.trace, results := t.results }

/-- O29. AUTO.HOLD changes nothing (R156). -/
def Obligations.HoldKeepsTheCommand : Prop :=
  ∀ s : State, 1500 < (s.width.get .mode).toNat → s.mbx = none → exec .autoHold s = .next s

/-- O30. CYCLE is its sub-operations in order, the record of their results (log 6) and their running alone
(log 8) being the model's choice (42_arbitration.md section 1 (R150), assumption log 6, assumption log 8).
-/
def Obligations.CycleIsItsSubOperations : Prop :=
  ∀ s : State, ∃ s1 s2 t : State,
    exec (if 1500 < (s.width.get .mode).toNat then .selAuto (s.width.get .mode)
      else .selManual (s.width.get .mode)) s = .next s1 ∧
    exec (if 1500 < (s.width.get .mode).toNat then
        (if s.mbx = none then .autoHold else .autoConsume)
      else .manual (s.width.get .steer) (s.width.get .throttle)) s1 = .next s2 ∧
    exec (if s2.cmd.speed.toNat < 1500 then .clsReversing
      else if s2.cmd.steer.toNat < 1450 then .clsTurnLeft s.time
      else if 1550 < s2.cmd.steer.toNat then .clsTurnRight s.time
      else .clsNeutral) s2 = .next t ∧
    exec .cycle s = .next t

/-- O31. A manual cycle issues the clamped STEER and THROTTLE widths and leaves the mailbox alone
(42_arbitration.md section 3 (R154), 42_arbitration.md section 4 (R157), 70_reset_and_hazards.md section 3
(R252)). -/
def Obligations.ManualCycleCommand : Prop :=
  ∀ s : State, (s.width.get .mode).toNat ≤ 1500 →
    ∃ t, exec .cycle s = .next t ∧
      t.cmd.steer.toNat = max 1000 (min (s.width.get .steer).toNat 2000) ∧
      t.cmd.speed.toNat = max 1440 (min (s.width.get .throttle).toNat 1560) ∧
      t.trace = s.trace ++ [t.cmd] ∧
      t = { s with cmd := t.cmd, trace := t.trace, results := t.results,
                   blink := t.blink, tgl := t.tgl, out := t.out }

/-- O32. An autonomous cycle consumes at most the held message, or holds the command (42_arbitration.md
section 3 (R155, R156), 43_mapper.md section 1 (R170), 41_message.md section 3 (R136)). -/
def Obligations.AutonomousCycleCommand : Prop :=
  ∀ s : State, 1500 < (s.width.get .mode).toNat →
    ∃ t, exec .cycle s = .next t ∧ t.mbx = none ∧
      (∀ c, s.mbx.bind mapMessage = some c → t.cmd = c ∧ t.trace = s.trace ++ [c]) ∧
      (s.mbx.bind mapMessage = none → t.cmd = s.cmd ∧ t.trace = s.trace) ∧
      t = { s with mbx := t.mbx, cmd := t.cmd, trace := t.trace, results := t.results,
                   blink := t.blink, tgl := t.tgl, out := t.out }

/-- O33. Repeated manual cycles issue the same command (42_arbitration.md section 5 (R160),
95_test_vectors.md S9). -/
def Obligations.ManualPathIsIdempotent : Prop :=
  ∀ (s t u : State) (n : Nat), (s.width.get .mode).toNat ≤ 1500 → exec .cycle s = .next t →
    runAll (List.replicate n .tick ++ [.cycle]) t = .next u →
    u.cmd = t.cmd ∧ u.trace = t.trace ++ [t.cmd]

/-- O34. In autonomous mode the STEER and THROTTLE widths have no influence (70_reset_and_hazards.md section
3 (R252), 42_arbitration.md section 3 (R155)). -/
def Obligations.AutonomousIgnoresTheSticks : Prop :=
  ∀ (s t : State) (w1 w2 : Word), 1500 < (s.width.get .mode).toNat → exec .cycle s = .next t →
    exec .cycle { s with width := (s.width.set .steer w1).set .throttle w2 } =
      .next { t with width := (s.width.set .steer w1).set .throttle w2 }

/-- O35. In manual mode the mailbox has no influence and is not touched (70_reset_and_hazards.md section 3
(R252), 41_message.md section 3 (R138)). -/
def Obligations.ManualIgnoresTheMailbox : Prop :=
  ∀ (s t : State) (m : Option Message), (s.width.get .mode).toNat ≤ 1500 → exec .cycle s = .next t →
    exec .cycle { s with mbx := m } = .next { t with mbx := m } ∧ t.mbx = s.mbx

/-- O36. The bucket table, row for row (R171, R172, R173, R174, R175, R176, R177, R178, R179, R180). -/
def Obligations.MapTable : Prop :=
  mapMessage .stop = some ⟨1500, 1435⟩ ∧
  ∀ d : Int,
    (0 < d ∧ d < 40 ∨ -40 < d ∧ d < 0 →
      ∃ c, mapMessage (.dev d) = some c ∧
        (c.steer.toNat : Int) = max 1400 (min (1500 - 40 * d) 1600) ∧ c.speed = 1560) ∧
    (40 ≤ d → d < 80 → mapMessage (.dev d) = some ⟨1000, 1550⟩) ∧
    (-80 < d → d ≤ -40 → mapMessage (.dev d) = some ⟨2000, 1550⟩) ∧
    (80 ≤ d → d < 100 → mapMessage (.dev d) = some ⟨1800, 1440⟩) ∧
    (-100 < d → d ≤ -80 → mapMessage (.dev d) = some ⟨1200, 1440⟩) ∧
    (100 ≤ d → mapMessage (.dev d) = some ⟨1800, 1430⟩) ∧
    (d ≤ -100 → mapMessage (.dev d) = some ⟨1200, 1430⟩) ∧
    (d = 0 → mapMessage (.dev d) = none)

/-- O37. MAP.STOP, MAP.PROP and MAP.LOCK hand out their row's command and write no register (43_mapper.md
section 2 (R171 to R175), assumption log 6). -/
def Obligations.MapForwardRowsComplete : Prop :=
  (∀ s : State,
    exec .mapStop s = .next { s with results := s.results ++ [.command (some ⟨1500, 1435⟩)] }) ∧
  (∀ (d : Int) (s : State), 0 < d → d < 40 →
    ∃ c : MotionCommand, (c.steer.toNat : Int) = max 1400 (min (1500 - 40 * d) 1600) ∧ c.speed = 1560 ∧
      exec (.mapPropPos d) s = .next { s with results := s.results ++ [.command (some c)] }) ∧
  (∀ (d : Int) (s : State), -40 < d → d < 0 →
    ∃ c : MotionCommand, (c.steer.toNat : Int) = max 1400 (min (1500 - 40 * d) 1600) ∧ c.speed = 1560 ∧
      exec (.mapPropNeg d) s = .next { s with results := s.results ++ [.command (some c)] }) ∧
  (∀ (d : Int) (s : State), 40 ≤ d → d < 80 →
    exec (.mapLockPos d) s =
      .next { s with results := s.results ++ [.command (some ⟨1000, 1550⟩)] }) ∧
  (∀ (d : Int) (s : State), -80 < d → d ≤ -40 →
    exec (.mapLockNeg d) s =
      .next { s with results := s.results ++ [.command (some ⟨2000, 1550⟩)] })

/-- O38. MAP.REV, MAP.FULLREV and MAP.ZERO hand out their row's result and write no register (43_mapper.md
section 2 (R176 to R180), assumption log 6). -/
def Obligations.MapReverseRowsComplete : Prop :=
  (∀ (d : Int) (s : State), 80 ≤ d → d < 100 →
    exec (.mapRevPos d) s =
      .next { s with results := s.results ++ [.command (some ⟨1800, 1440⟩)] }) ∧
  (∀ (d : Int) (s : State), -100 < d → d ≤ -80 →
    exec (.mapRevNeg d) s =
      .next { s with results := s.results ++ [.command (some ⟨1200, 1440⟩)] }) ∧
  (∀ (d : Int) (s : State), 100 ≤ d →
    exec (.mapFullrevPos d) s =
      .next { s with results := s.results ++ [.command (some ⟨1800, 1430⟩)] }) ∧
  (∀ (d : Int) (s : State), d ≤ -100 →
    exec (.mapFullrevNeg d) s =
      .next { s with results := s.results ++ [.command (some ⟨1200, 1430⟩)] }) ∧
  (∀ s : State, exec .mapZero s = .next { s with results := s.results ++ [.command none] })

/-- O39. The map of -d mirrors the map of d about 1500 (43_mapper.md section 3 (R181)). -/
def Obligations.MapIsMirrored : Prop :=
  ∀ (d : Int) (c : MotionCommand), mapMessage (.dev d) = some c →
    ∃ c', mapMessage (.dev (-d)) = some c' ∧
      c.steer.toNat + c'.steer.toNat = 3000 ∧ c'.speed = c.speed

/-- O40. The map produces only the tabulated values (43_mapper.md section 3 (R181, R184), 10_state.md
section 6 (R39)). -/
def Obligations.MapValues : Prop :=
  ∀ (m : Message) (c : MotionCommand), mapMessage m = some c →
    c.steer.toNat ∈ [1000, 1200, 1400, 1420, 1460, 1500, 1540, 1580, 1600, 1800, 2000] ∧
      c.speed.toNat ∈ [1430, 1435, 1440, 1550, 1560]

/-- O41. CLS.REVERSING lights both sides (R192). -/
def Obligations.ReversingIsSolid : Prop :=
  ∀ s : State, s.cmd.speed.toNat < 1500 →
    exec .clsReversing s = .next { s with out := ⟨true, true⟩, blink := ⟨false, false⟩ }

/-- O42. CLS.NEUTRAL darkens both sides (R195). -/
def Obligations.NeutralIsDark : Prop :=
  ∀ s : State, 1500 ≤ s.cmd.speed.toNat → 1450 ≤ s.cmd.steer.toNat → s.cmd.steer.toNat ≤ 1550 →
    exec .clsNeutral s = .next { s with out := ⟨false, false⟩, blink := ⟨false, false⟩ }

/-- O43. CLS.TURN_LEFT: right side off; entry, a due toggle, or nothing more on the left (R193). -/
def Obligations.TurnLeftBlinks : Prop :=
  ∀ (t : Word) (s : State), 1500 ≤ s.cmd.speed.toNat → s.cmd.steer.toNat < 1450 →
    (s.blink.left = false → exec (.clsTurnLeft t) s =
      .next { s with out := ⟨s.out.left, false⟩, blink := ⟨true, false⟩, tgl := ⟨t, s.tgl.right⟩ }) ∧
    (s.blink.left = true →
      200000 ≤ (4294967296 + t.toNat - s.tgl.left.toNat) % 4294967296 → exec (.clsTurnLeft t) s =
      .next { s with out := ⟨!s.out.left, false⟩, blink := ⟨true, false⟩, tgl := ⟨t, s.tgl.right⟩ }) ∧
    (s.blink.left = true →
      (4294967296 + t.toNat - s.tgl.left.toNat) % 4294967296 < 200000 → exec (.clsTurnLeft t) s =
      .next { s with out := ⟨s.out.left, false⟩, blink := ⟨true, false⟩ })

/-- O44. CLS.TURN_RIGHT: left side off; entry, a due toggle, or nothing more on the right (R194). -/
def Obligations.TurnRightBlinks : Prop :=
  ∀ (t : Word) (s : State), 1500 ≤ s.cmd.speed.toNat → 1550 < s.cmd.steer.toNat →
    (s.blink.right = false → exec (.clsTurnRight t) s =
      .next { s with out := ⟨false, s.out.right⟩, blink := ⟨false, true⟩, tgl := ⟨s.tgl.left, t⟩ }) ∧
    (s.blink.right = true →
      200000 ≤ (4294967296 + t.toNat - s.tgl.right.toNat) % 4294967296 → exec (.clsTurnRight t) s =
      .next { s with out := ⟨false, !s.out.right⟩, blink := ⟨false, true⟩, tgl := ⟨s.tgl.left, t⟩ }) ∧
    (s.blink.right = true →
      (4294967296 + t.toNat - s.tgl.right.toNat) % 4294967296 < 200000 → exec (.clsTurnRight t) s =
      .next { s with out := ⟨false, s.out.right⟩, blink := ⟨false, true⟩ })

/-- O45. BLINK.TOGGLE complements the side's output and stamps its toggle time (44_indicator.md section 2
(R196), 44_indicator.md section 3 (R197)). -/
def Obligations.BlinkToggleCompletes : Prop :=
  ∀ (t : Word) (s : State), 1500 ≤ s.cmd.speed.toNat →
    (s.cmd.steer.toNat < 1450 → s.blink.left = true →
      200000 ≤ (4294967296 + t.toNat - s.tgl.left.toNat) % 4294967296 →
      exec (.blinkToggle .left t) s =
        .next { s with out := ⟨!s.out.left, s.out.right⟩, tgl := ⟨t, s.tgl.right⟩ }) ∧
    (1550 < s.cmd.steer.toNat → s.blink.right = true →
      200000 ≤ (4294967296 + t.toNat - s.tgl.right.toNat) % 4294967296 →
      exec (.blinkToggle .right t) s =
        .next { s with out := ⟨s.out.left, !s.out.right⟩, tgl := ⟨s.tgl.left, t⟩ })

/-- O46. In a sustained turn the lamp toggles exactly when 200000 ticks have elapsed, and the other side
stays off (44_indicator.md section 2 (R196), 44_indicator.md section 3 (R200), 95_test_vectors.md S7). -/
def Obligations.SustainedTurnTogglesAtTheInterval : Prop :=
  ∀ (side : Side) (s t : State), s.blink.get side = true → exec .cycle s = .next t →
    t.blink.get side = true →
    (t.out.get side ≠ s.out.get side ↔
      200000 ≤ (4294967296 + s.time.toNat - (s.tgl.get side).toNat) % 4294967296) ∧
    (t.out.get side ≠ s.out.get side → t.tgl.get side = s.time) ∧
    (t.out.get side = s.out.get side → t.tgl.get side = s.tgl.get side) ∧
    t.out.get side.other = false

/-- O47. After any CYCLE the outputs and flags are those of the class of the command (44_indicator.md
section 3 (R199), 10_state.md section 6 (R39), 44_indicator.md section 1 (R190)). -/
def Obligations.EveryCycleShowsItsClass : Prop :=
  ∀ s : State, ∃ t, exec .cycle s = .next t ∧ IndicatorTable t

/-- O48. RESET sets every register, from any state (R240). -/
def Obligations.ResetSetsEveryRegister : Prop :=
  ∀ (pins : PerChannel Bool) (s : State), ∃ t, exec (.reset pins) s = .next t ∧
    t.time = 0 ∧ t.mbx = none ∧ t.cmd = ⟨1500, 1500⟩ ∧
    (∀ c : Channel, t.pin.get c = pins.get c ∧ t.start.get c = 0 ∧ t.width.get c = 1500) ∧
    t.blink = ⟨false, false⟩ ∧ t.tgl = ⟨0, 0⟩ ∧ t.out = ⟨false, false⟩ ∧ t.trace = s.trace

/-- O49. RESET after any operation leaves the reset state (60_exceptions.md section 3 (R216), assumption log
11). -/
def Obligations.ResetWins : Prop :=
  ∀ (i : Instr) (pins : PerChannel Bool) (s t u v : State), exec i s = .next t →
    exec (.reset pins) t = .next u → exec (.reset pins) s = .next v →
    u = { v with trace := t.trace, results := t.results, inputs := t.inputs, eventNo := t.eventNo }

/-- O50. The machine right after reset (10_state.md section 5 (R38), assumption log 5, assumption log 6). -/
def Obligations.StateAfterReset : Prop :=
  State.reset = ⟨0, ⟨false, false, false, false, false⟩, ⟨0, 0, 0, 0, 0⟩, ⟨1500, 1500, 1500, 1500, 1500⟩,
    none, ⟨1500, 1500⟩, ⟨false, false⟩, ⟨0, 0⟩, ⟨false, false⟩, [], [], [], 0⟩

/-- O51. Every operation completes where it is enabled; that NOEDGE (log 15) and the MAP rows on their own
(log 8) are enabled in every state is the model's choice (60_exceptions.md section 1 (R210), 00_scope.md
section 5 (R11), assumption log 3, assumption log 8, assumption log 15). -/
def Obligations.EnabledOperationsComplete : Prop :=
  (∀ (i : Instr) (s : State), Enabled i s → ∃ t, exec i s = .next t) ∧
  (∀ (i : Instr) (s : State) (r : Fault), exec i s ≠ .fault r)

/-- O52. An operation that is not enabled is not taken (00_scope.md section 5 (R11), 40_capture.md (R111,
R112), 41_message.md section 1 (R130), assumption log 3). -/
def Obligations.NotEnabledIsNotTaken : Prop :=
  ∀ (i : Instr) (s : State), ¬ Enabled i s → ∃ op, exec i s = .refused (.notEnabled op)

/-- O53. Every register has one writing agent besides reset (10_state.md section 4 (R37), 60_exceptions.md
section 8 (R222)). -/
def Obligations.SingleWriters : Prop :=
  ∀ (i : Instr) (s t : State), exec i s = .next t → (∀ pins, i ≠ .reset pins) →
    (t.time ≠ s.time → agentOf i = .timeBase) ∧
    (∀ c, t.pin.get c ≠ s.pin.get c ∨ t.start.get c ≠ s.start.get c ∨ t.width.get c ≠ s.width.get c →
      agentOf i = .capture c) ∧
    (s.mbx = none → t.mbx ≠ none → agentOf i = .linePort) ∧
    (s.mbx ≠ none → t.mbx ≠ s.mbx → agentOf i = .controlCycle) ∧
    (t.cmd ≠ s.cmd ∨ t.trace ≠ s.trace ∨ t.blink ≠ s.blink ∨ t.tgl ≠ s.tgl ∨ t.out ≠ s.out →
      agentOf i = .controlCycle)

/-- O54. An operation issues at most once, and what it issues is the command it leaves held (10_state.md
section 8 (R44), 42_arbitration.md section 4 (R157)). -/
def Obligations.TraceGrowsByTheHeldCommand : Prop :=
  ∀ (i : Instr) (s t : State), exec i s = .next t →
    t.trace = s.trace ∨ t.trace = s.trace ++ [t.cmd]

/-- O55. Every step keeps the held command and every issued command bounded (10_state.md section 6 (R39),
42_arbitration.md section 4 (R157), 43_mapper.md section 3 (R184)). -/
def Obligations.StepKeepsCommandsBounded : Prop :=
  ∀ s t : State, CommandsBounded s → step s = .next t → CommandsBounded t

/-- O56. Every step keeps the indicator registers consistent with the held command (44_indicator.md section
3 (R199), 10_state.md section 2 (R28), 10_state.md section 6 (R39)). -/
def Obligations.StepKeepsIndicatorTable : Prop :=
  ∀ s t : State, IndicatorTable s → step s = .next t → IndicatorTable t

/-- O57. The reset state meets both invariants, for every level of the pins (10_state.md section 5 (R38),
10_state.md section 6 (R39)). -/
def Obligations.ResetMeetsInvariants : Prop :=
  (∀ pins : PerChannel Bool,
    CommandsBounded (State.resetWith pins) ∧ IndicatorTable (State.resetWith pins)) ∧
  CommandsBounded State.reset ∧ IndicatorTable State.reset

/-- O58. The output ports are functions of the registers (10_state.md section 7 (R41), assumption log 4). -/
def Obligations.PortsShowTheRegisters : Prop :=
  ∀ s : State, s.actSteer = s.cmd.steer ∧ s.actSpeed = s.cmd.speed ∧
    s.ledL = s.out.left ∧ s.ledR = s.out.right ∧ (s.lineReady = true ↔ s.mbx = none) ∧
    (∀ c : Channel, s.rdwData c.index = s.width.get c)

/-- O59. The environment can cause an event exactly where its operation is enabled (00_scope.md section 5
(R11), 30_encoding.md section 2 (R81), 41_message.md section 1 (R130), 20_memory.md section 3 (R62),
assumption log 1, assumption log 15). -/
def Obligations.EventsHappenOnlyWhenEnabled : Prop :=
  ∀ s : State,
    (∀ (c : Channel) (p n : Bool), s.canHappen (.pin (encodePin c p n)) = true ↔ s.pin.get c = p) ∧
    (∀ b : List Byte, s.canHappen (.line b) = true ↔ s.mbx = none) ∧
    s.canHappen .tick = true ∧ s.canHappen .cycleGo = true ∧
    (∀ levels : PerChannel Bool, s.canHappen (.rst levels) = true) ∧
    (∀ c : Channel, s.canHappen (.rdw c.index) = true) ∧
    (∀ code : BitVec 5, 5 ≤ code.toNat / 4 → s.canHappen (.pin code) = false) ∧
    (∀ sel : BitVec 3, 5 ≤ sel.toNat → s.canHappen (.rdw sel) = false) ∧
    (∀ e : Input, s.canHappen e = true → ∃ i, decodeInput e = .ok i ∧ Enabled i s)

/-- O60. From every state the block steps on (60_exceptions.md section 1 (R210), 00_scope.md section 5
(R11), 93_implementation_defined.md section 1 (U6), assumption log 1, assumption log 20). -/
def Obligations.EveryStateSteps : Prop :=
  ∀ s : State, ∃ t, step s = .next t
end

