-- ==== Sys2Proof/Laws/Arrays.lean ====
section
/-! SUPPORT. Reading a register array after a write, the opposite side, and the clamp. -/

namespace Sys2Proof

@[simp] theorem PerChannel.get_set_same {α : Type} (x : PerChannel α) (c : Channel) (v : α) :
    (x.set c v).get c = v := by cases c <;> rfl

theorem PerChannel.get_set_other {α : Type} (x : PerChannel α) {c d : Channel} (v : α) (h : d ≠ c) :
    (x.set c v).get d = x.get d := by cases c <;> cases d <;> first | rfl | exact absurd rfl h

theorem PerChannel.get_set {α : Type} (x : PerChannel α) (c d : Channel) (v : α) :
    (x.set c v).get d = if d = c then v else x.get d := by
  by_cases h : d = c
  · subst h; simp
  · rw [get_set_other x v h, if_neg h]

theorem PerChannel.set_set_comm {α : Type} (x : PerChannel α) {c d : Channel} (v w : α) (h : c ≠ d) :
    (x.set c v).set d w = (x.set d w).set c v := by
  cases c <;> cases d <;> first | rfl | exact absurd rfl h

theorem PerChannel.ext_get {α : Type} {x y : PerChannel α} (h : ∀ c, x.get c = y.get c) : x = y := by
  cases x; cases y
  have h0 := h .steer; have h1 := h .throttle; have h2 := h .mode; have h3 := h .aux1; have h4 := h .aux2
  simp only [PerChannel.get] at h0 h1 h2 h3 h4
  simp [h0, h1, h2, h3, h4]

@[simp] theorem PerSide.get_set_same {α : Type} (x : PerSide α) (side : Side) (v : α) :
    (x.set side v).get side = v := by cases side <;> rfl

@[simp] theorem PerSide.get_set_other {α : Type} (x : PerSide α) (side : Side) (v : α) :
    (x.set side.other v).get side = x.get side := by cases side <;> rfl

@[simp] theorem PerSide.set_left {α : Type} (x : PerSide α) (v : α) : x.set .left v = ⟨v, x.right⟩ := rfl

@[simp] theorem PerSide.set_right {α : Type} (x : PerSide α) (v : α) : x.set .right v = ⟨x.left, v⟩ := rfl

@[simp] theorem PerSide.get_left {α : Type} (x : PerSide α) : x.get .left = x.left := rfl

@[simp] theorem PerSide.get_right {α : Type} (x : PerSide α) : x.get .right = x.right := rfl

@[simp] theorem Side.other_left : Side.left.other = .right := rfl

@[simp] theorem Side.other_right : Side.right.other = .left := rfl

end Sys2Proof

namespace Sys2Proof.Machine

open Sys2Proof

/-- A time is below 2^32 (R7, R21). -/
theorem word_toNat_lt (w : Word) : w.toNat < 4294967296 := w.isLt

/-- A target is below 2^16 (R7, R27). -/
theorem target_toNat_lt (v : Target) : v.toNat < 65536 := v.isLt

/-- The modular difference of two times (R9, R112, R197). -/
theorem word_toNat_sub (t w : Word) : (t - w).toNat = (4294967296 + t.toNat - w.toNat) % 4294967296 := by
  have := word_toNat_lt w
  rw [BitVec.toNat_sub]; simp only [Config.wTime]; omega

/-- The modular successor of a time (R110). -/
theorem word_toNat_succ (t : Word) : (t + 1).toNat = (t.toNat + 1) % 4294967296 := rfl

/-- The clamp is the bounded maximum and minimum (R10). -/
theorem clamp_eq {v lo hi : Int} (h : lo ≤ hi) : clamp v lo hi = max lo (min v hi) := by
  unfold clamp; split <;> [skip; split] <;> omega

/-- A target register holds a number of 0 .. 65535 exactly. -/
theorem targetOfInt_toNat {v : Int} (h0 : 0 ≤ v) (h1 : v < 65536) : (targetOfInt v).toNat = v.toNat := by
  simp only [targetOfInt, BitVec.toNat_ofInt, Config.wCmd]
  omega

/-- A clamped width as a number (R10, R154). -/
theorem clampWidth_toNat (w : Word) {lo hi : Nat} (h : lo ≤ hi) (h1 : hi < 65536) :
    (clampWidth w lo hi).toNat = max lo (min w.toNat hi) := by
  unfold clampWidth
  rw [clamp_eq (by omega), targetOfInt_toNat] <;> omega

end Sys2Proof.Machine
end

