-- ==== Sys2Proof/Laws/Decode.lean ====
section
/-! SUPPORT. What the selectors answer, and that decimal digits are read back. -/

namespace Sys2Proof

/-! ### Selectors (R85, R87, R88, R196) -/

theorem modeOf_eq_autonomous {m : Word} : modeOf m = .autonomous ↔ 1500 < m.toNat := by
  unfold modeOf; simp only [Config.modeThresh]; split <;> simp [*]

theorem modeOf_eq_manual {m : Word} : modeOf m = .manual ↔ m.toNat ≤ 1500 := by
  unfold modeOf; simp only [Config.modeThresh]; split <;> simp <;> omega

@[simp] theorem bucketOf_stop : bucketOf .stop = .stop := rfl

/-- The row of a deviation is the one whose range holds it (R87). -/
theorem bucketOf_dev_eq {d : Int} {b : Bucket} :
    bucketOf (.dev d) = b ↔
      match b with
      | .stop => False
      | .propPos => 0 < d ∧ d < 40
      | .propNeg => -40 < d ∧ d < 0
      | .lockPos => 40 ≤ d ∧ d < 80
      | .lockNeg => -80 < d ∧ d ≤ -40
      | .revPos => 80 ≤ d ∧ d < 100
      | .revNeg => -100 < d ∧ d ≤ -80
      | .fullrevPos => 100 ≤ d
      | .fullrevNeg => d ≤ -100
      | .zero => d = 0 := by
  simp only [bucketOf, Config.b1, Config.b2, Config.b3]
  cases b <;> dsimp only <;> repeat' split
  all_goals simp <;> omega

theorem classOf_eq_reversing {cmd : MotionCommand} : classOf cmd = .reversing ↔ cmd.speed.toNat < 1500 := by
  simp only [classOf, Config.indCenter, Config.leftThresh, Config.rightThresh]
  repeat' split
  all_goals (simp; omega)

theorem classOf_eq_left {cmd : MotionCommand} :
    classOf cmd = .turn .left ↔ 1500 ≤ cmd.speed.toNat ∧ cmd.steer.toNat < 1450 := by
  simp only [classOf, Config.indCenter, Config.leftThresh, Config.rightThresh]
  repeat' split
  all_goals (simp; omega)

theorem classOf_eq_right {cmd : MotionCommand} :
    classOf cmd = .turn .right ↔ 1500 ≤ cmd.speed.toNat ∧ 1550 < cmd.steer.toNat := by
  simp only [classOf, Config.indCenter, Config.leftThresh, Config.rightThresh]
  repeat' split
  all_goals (simp; omega)

theorem classOf_eq_neutral {cmd : MotionCommand} :
    classOf cmd = .neutral ↔
      1500 ≤ cmd.speed.toNat ∧ 1450 ≤ cmd.steer.toNat ∧ cmd.steer.toNat ≤ 1550 := by
  simp only [classOf, Config.indCenter, Config.leftThresh, Config.rightThresh]
  repeat' split
  all_goals (simp; omega)

theorem toggleDue_iff {t tgl : Word} : toggleDue t tgl = true ↔ 200000 ≤ (t - tgl).toNat := by
  simp only [toggleDue, Config.blinkUs, decide_eq_true_eq]

/-! ### Digits (R84) -/

theorem digitByte_toNat {k : Nat} (h : k < 10) : (digitByte k).toNat = 0x30 + k := by
  simp only [digitByte, BitVec.toNat_ofNat]; omega

theorem isDigit_digitByte {k : Nat} (h : k < 10) : isDigit (digitByte k) = true := by
  simp [isDigit, digitByte_toNat h]; omega

theorem decimalAux_digits (fuel n : Nat) (acc : List Byte) (h : acc.all isDigit = true) :
    (decimalAux fuel n acc).all isDigit = true := by
  induction fuel generalizing n acc with
  | zero => simpa [decimalAux] using h
  | succ f ih =>
    unfold decimalAux; split
    · next hn => simpa [isDigit_digitByte hn] using h
    · exact ih _ _ (by simpa [isDigit_digitByte (Nat.mod_lt n (by omega : 0 < 10))] using h)

theorem decimalAux_ne_nil (fuel n : Nat) (acc : List Byte) : decimalAux (fuel + 1) n acc ≠ [] := by
  induction fuel generalizing n acc with
  | zero => unfold decimalAux; split <;> simp [decimalAux]
  | succ f ih => unfold decimalAux; split <;> [simp; exact ih _ _]

/-- The value of a row of digits, each appended digit shifting the number so far by ten. -/
theorem digitsValue_from (ds : List Byte) (n : Nat) :
    ds.foldl (fun n b => 10 * n + (b.toNat - 0x30)) n = n * 10 ^ ds.length + digitsValue ds := by
  unfold digitsValue
  induction ds generalizing n with
  | nil => simp
  | cons b ds ih =>
    simp only [List.foldl_cons, List.length_cons]
    rw [ih, ih (10 * 0 + _), pow_succ]; ring

theorem digitsValue_cons (b : Byte) (ds : List Byte) :
    digitsValue (b :: ds) = (b.toNat - 0x30) * 10 ^ ds.length + digitsValue ds := by
  rw [digitsValue, List.foldl_cons, digitsValue_from]; simp

theorem digitsValue_decimalAux (fuel n : Nat) (acc : List Byte) (h : n < fuel) :
    digitsValue (decimalAux fuel n acc) = n * 10 ^ acc.length + digitsValue acc := by
  induction fuel generalizing n acc with
  | zero => omega
  | succ f ih =>
    unfold decimalAux; split
    · next hn => rw [digitsValue_cons, digitByte_toNat hn]; simp
    · next hn =>
      rw [ih _ _ (by omega), digitsValue_cons, digitByte_toNat (Nat.mod_lt n (by omega)),
        List.length_cons, pow_succ]
      have := Nat.div_add_mod n 10
      conv_rhs => rw [← this]
      simp only [Nat.add_sub_cancel_left]; ring

/-- The decimal digits of a number are read back as that number (R84). -/
theorem decodeDigits_decimal (n : Nat) : decodeDigits (decimal n) = some n := by
  have h1 : decimal n ≠ [] := decimalAux_ne_nil _ _ _
  have h2 : (decimal n).all isDigit = true := decimalAux_digits _ _ _ rfl
  have h3 : digitsValue (decimal n) = n := by
    rw [decimal, digitsValue_decimalAux _ _ _ (by omega)]; simp [digitsValue]
  rw [decodeDigits, if_pos ⟨h1, h2⟩, h3]

/-- A digit byte is no sign byte. -/
theorem isDigit_ne_sign {b : Byte} (h : isDigit b = true) : b ≠ 0x2D#8 ∧ b ≠ 0x2B#8 := by
  constructor <;> rintro rfl <;> simp [isDigit] at h

theorem isDigit_not_isSpace {b : Byte} (h : isDigit b = true) : isSpace b = false := by
  have h0 : 0x30 ≤ b.toNat := by simp [isDigit] at h; exact h.1
  have hne : ∀ k : Byte, k.toNat < 0x30 → (b == k) = false := by
    intro k hk; simp only [beq_eq_false_iff_ne]; rintro rfl; omega
  simp [isSpace, hne]

/-- Text of digits alone is read as the number, without a sign. -/
theorem decodeInteger_digits {ds : List Byte} (h : ds.all isDigit = true) :
    decodeInteger ds = (decodeDigits ds).map (fun n : Nat => (n : Int)) := by
  cases ds with
  | nil => simp [decodeInteger, decodeDigits]
  | cons b ds =>
    have hb : isDigit b = true := by simp at h; exact h.1
    simp [decodeInteger, isDigit_ne_sign hb]

/-- The text of an integer is read back as that integer (R84). -/
theorem decodeInteger_encodeInteger (d : Int) : decodeInteger (encodeInteger d) = some d := by
  unfold encodeInteger; split
  · simp only [decodeInteger, decodeDigits_decimal, Option.map_some, if_true, Option.some.injEq]; omega
  · rw [decodeInteger_digits (ds := decimal d.natAbs) (decimalAux_digits _ _ _ rfl), decodeDigits_decimal,
      Option.map_some, Option.some.injEq]
    omega

/-! ### Trimming (R82) -/

/-- A line that neither begins nor ends with whitespace is its own trim. -/
theorem trim_eq_self {b : List Byte} (h0 : ∀ x, b.head? = some x → isSpace x = false)
    (h1 : ∀ x, b.getLast? = some x → isSpace x = false) : trim b = b := by
  have hd : ∀ l : List Byte, (∀ x, l.head? = some x → isSpace x = false) → l.dropWhile isSpace = l := by
    intro l hl; cases l with
    | nil => rfl
    | cons a l => simp [hl a rfl]
  unfold trim
  rw [hd b h0, hd b.reverse (by simpa using h1), List.reverse_reverse]

end Sys2Proof
end

