-- ==== Sys2Proof/Laws/State.lean ====
section
/-! SUPPORT. One lemma per register per update: the register written holds the value written, every other
register is unchanged. -/

namespace Sys2Proof.Machine

open Sys2Proof

variable (s : State)

@[simp] theorem State.setTime_time (v : Word) : (s.setTime v).time = v := rfl
@[simp] theorem State.setTime_pin (v : Word) : (s.setTime v).pin = s.pin := rfl
@[simp] theorem State.setTime_start (v : Word) : (s.setTime v).start = s.start := rfl
@[simp] theorem State.setTime_width (v : Word) : (s.setTime v).width = s.width := rfl
@[simp] theorem State.setTime_mbx (v : Word) : (s.setTime v).mbx = s.mbx := rfl
@[simp] theorem State.setTime_cmd (v : Word) : (s.setTime v).cmd = s.cmd := rfl
@[simp] theorem State.setTime_blink (v : Word) : (s.setTime v).blink = s.blink := rfl
@[simp] theorem State.setTime_tgl (v : Word) : (s.setTime v).tgl = s.tgl := rfl
@[simp] theorem State.setTime_out (v : Word) : (s.setTime v).out = s.out := rfl
@[simp] theorem State.setTime_trace (v : Word) : (s.setTime v).trace = s.trace := rfl
@[simp] theorem State.setTime_results (v : Word) : (s.setTime v).results = s.results := rfl
@[simp] theorem State.setTime_inputs (v : Word) : (s.setTime v).inputs = s.inputs := rfl
@[simp] theorem State.setTime_eventNo (v : Word) : (s.setTime v).eventNo = s.eventNo := rfl

@[simp] theorem State.setPin_time (c : Channel) (v : Bool) : (s.setPin c v).time = s.time := rfl
@[simp] theorem State.setPin_pin (c : Channel) (v : Bool) : (s.setPin c v).pin = s.pin.set c v := rfl
@[simp] theorem State.setPin_start (c : Channel) (v : Bool) : (s.setPin c v).start = s.start := rfl
@[simp] theorem State.setPin_width (c : Channel) (v : Bool) : (s.setPin c v).width = s.width := rfl
@[simp] theorem State.setPin_mbx (c : Channel) (v : Bool) : (s.setPin c v).mbx = s.mbx := rfl
@[simp] theorem State.setPin_cmd (c : Channel) (v : Bool) : (s.setPin c v).cmd = s.cmd := rfl
@[simp] theorem State.setPin_blink (c : Channel) (v : Bool) : (s.setPin c v).blink = s.blink := rfl
@[simp] theorem State.setPin_tgl (c : Channel) (v : Bool) : (s.setPin c v).tgl = s.tgl := rfl
@[simp] theorem State.setPin_out (c : Channel) (v : Bool) : (s.setPin c v).out = s.out := rfl
@[simp] theorem State.setPin_trace (c : Channel) (v : Bool) : (s.setPin c v).trace = s.trace := rfl
@[simp] theorem State.setPin_results (c : Channel) (v : Bool) : (s.setPin c v).results = s.results := rfl
@[simp] theorem State.setPin_inputs (c : Channel) (v : Bool) : (s.setPin c v).inputs = s.inputs := rfl
@[simp] theorem State.setPin_eventNo (c : Channel) (v : Bool) : (s.setPin c v).eventNo = s.eventNo := rfl

@[simp] theorem State.setStart_time (c : Channel) (v : Word) : (s.setStart c v).time = s.time := rfl
@[simp] theorem State.setStart_pin (c : Channel) (v : Word) : (s.setStart c v).pin = s.pin := rfl
@[simp] theorem State.setStart_start (c : Channel) (v : Word) : (s.setStart c v).start = s.start.set c v := rfl
@[simp] theorem State.setStart_width (c : Channel) (v : Word) : (s.setStart c v).width = s.width := rfl
@[simp] theorem State.setStart_mbx (c : Channel) (v : Word) : (s.setStart c v).mbx = s.mbx := rfl
@[simp] theorem State.setStart_cmd (c : Channel) (v : Word) : (s.setStart c v).cmd = s.cmd := rfl
@[simp] theorem State.setStart_blink (c : Channel) (v : Word) : (s.setStart c v).blink = s.blink := rfl
@[simp] theorem State.setStart_tgl (c : Channel) (v : Word) : (s.setStart c v).tgl = s.tgl := rfl
@[simp] theorem State.setStart_out (c : Channel) (v : Word) : (s.setStart c v).out = s.out := rfl
@[simp] theorem State.setStart_trace (c : Channel) (v : Word) : (s.setStart c v).trace = s.trace := rfl
@[simp] theorem State.setStart_results (c : Channel) (v : Word) : (s.setStart c v).results = s.results := rfl
@[simp] theorem State.setStart_inputs (c : Channel) (v : Word) : (s.setStart c v).inputs = s.inputs := rfl
@[simp] theorem State.setStart_eventNo (c : Channel) (v : Word) : (s.setStart c v).eventNo = s.eventNo := rfl

@[simp] theorem State.setWidth_time (c : Channel) (v : Word) : (s.setWidth c v).time = s.time := rfl
@[simp] theorem State.setWidth_pin (c : Channel) (v : Word) : (s.setWidth c v).pin = s.pin := rfl
@[simp] theorem State.setWidth_start (c : Channel) (v : Word) : (s.setWidth c v).start = s.start := rfl
@[simp] theorem State.setWidth_width (c : Channel) (v : Word) : (s.setWidth c v).width = s.width.set c v := rfl
@[simp] theorem State.setWidth_mbx (c : Channel) (v : Word) : (s.setWidth c v).mbx = s.mbx := rfl
@[simp] theorem State.setWidth_cmd (c : Channel) (v : Word) : (s.setWidth c v).cmd = s.cmd := rfl
@[simp] theorem State.setWidth_blink (c : Channel) (v : Word) : (s.setWidth c v).blink = s.blink := rfl
@[simp] theorem State.setWidth_tgl (c : Channel) (v : Word) : (s.setWidth c v).tgl = s.tgl := rfl
@[simp] theorem State.setWidth_out (c : Channel) (v : Word) : (s.setWidth c v).out = s.out := rfl
@[simp] theorem State.setWidth_trace (c : Channel) (v : Word) : (s.setWidth c v).trace = s.trace := rfl
@[simp] theorem State.setWidth_results (c : Channel) (v : Word) : (s.setWidth c v).results = s.results := rfl
@[simp] theorem State.setWidth_inputs (c : Channel) (v : Word) : (s.setWidth c v).inputs = s.inputs := rfl
@[simp] theorem State.setWidth_eventNo (c : Channel) (v : Word) : (s.setWidth c v).eventNo = s.eventNo := rfl

@[simp] theorem State.setMbx_time (m : Option Message) : (s.setMbx m).time = s.time := rfl
@[simp] theorem State.setMbx_pin (m : Option Message) : (s.setMbx m).pin = s.pin := rfl
@[simp] theorem State.setMbx_start (m : Option Message) : (s.setMbx m).start = s.start := rfl
@[simp] theorem State.setMbx_width (m : Option Message) : (s.setMbx m).width = s.width := rfl
@[simp] theorem State.setMbx_mbx (m : Option Message) : (s.setMbx m).mbx = m := rfl
@[simp] theorem State.setMbx_cmd (m : Option Message) : (s.setMbx m).cmd = s.cmd := rfl
@[simp] theorem State.setMbx_blink (m : Option Message) : (s.setMbx m).blink = s.blink := rfl
@[simp] theorem State.setMbx_tgl (m : Option Message) : (s.setMbx m).tgl = s.tgl := rfl
@[simp] theorem State.setMbx_out (m : Option Message) : (s.setMbx m).out = s.out := rfl
@[simp] theorem State.setMbx_trace (m : Option Message) : (s.setMbx m).trace = s.trace := rfl
@[simp] theorem State.setMbx_results (m : Option Message) : (s.setMbx m).results = s.results := rfl
@[simp] theorem State.setMbx_inputs (m : Option Message) : (s.setMbx m).inputs = s.inputs := rfl
@[simp] theorem State.setMbx_eventNo (m : Option Message) : (s.setMbx m).eventNo = s.eventNo := rfl

@[simp] theorem State.setCmd_time (c : MotionCommand) : (s.setCmd c).time = s.time := rfl
@[simp] theorem State.setCmd_pin (c : MotionCommand) : (s.setCmd c).pin = s.pin := rfl
@[simp] theorem State.setCmd_start (c : MotionCommand) : (s.setCmd c).start = s.start := rfl
@[simp] theorem State.setCmd_width (c : MotionCommand) : (s.setCmd c).width = s.width := rfl
@[simp] theorem State.setCmd_mbx (c : MotionCommand) : (s.setCmd c).mbx = s.mbx := rfl
@[simp] theorem State.setCmd_cmd (c : MotionCommand) : (s.setCmd c).cmd = c := rfl
@[simp] theorem State.setCmd_blink (c : MotionCommand) : (s.setCmd c).blink = s.blink := rfl
@[simp] theorem State.setCmd_tgl (c : MotionCommand) : (s.setCmd c).tgl = s.tgl := rfl
@[simp] theorem State.setCmd_out (c : MotionCommand) : (s.setCmd c).out = s.out := rfl
@[simp] theorem State.setCmd_trace (c : MotionCommand) : (s.setCmd c).trace = s.trace := rfl
@[simp] theorem State.setCmd_results (c : MotionCommand) : (s.setCmd c).results = s.results := rfl
@[simp] theorem State.setCmd_inputs (c : MotionCommand) : (s.setCmd c).inputs = s.inputs := rfl
@[simp] theorem State.setCmd_eventNo (c : MotionCommand) : (s.setCmd c).eventNo = s.eventNo := rfl

@[simp] theorem State.setBlink_time (side : Side) (v : Bool) : (s.setBlink side v).time = s.time := rfl
@[simp] theorem State.setBlink_pin (side : Side) (v : Bool) : (s.setBlink side v).pin = s.pin := rfl
@[simp] theorem State.setBlink_start (side : Side) (v : Bool) : (s.setBlink side v).start = s.start := rfl
@[simp] theorem State.setBlink_width (side : Side) (v : Bool) : (s.setBlink side v).width = s.width := rfl
@[simp] theorem State.setBlink_mbx (side : Side) (v : Bool) : (s.setBlink side v).mbx = s.mbx := rfl
@[simp] theorem State.setBlink_cmd (side : Side) (v : Bool) : (s.setBlink side v).cmd = s.cmd := rfl
@[simp] theorem State.setBlink_blink (side : Side) (v : Bool) : (s.setBlink side v).blink = s.blink.set side v := rfl
@[simp] theorem State.setBlink_tgl (side : Side) (v : Bool) : (s.setBlink side v).tgl = s.tgl := rfl
@[simp] theorem State.setBlink_out (side : Side) (v : Bool) : (s.setBlink side v).out = s.out := rfl
@[simp] theorem State.setBlink_trace (side : Side) (v : Bool) : (s.setBlink side v).trace = s.trace := rfl
@[simp] theorem State.setBlink_results (side : Side) (v : Bool) : (s.setBlink side v).results = s.results := rfl
@[simp] theorem State.setBlink_inputs (side : Side) (v : Bool) : (s.setBlink side v).inputs = s.inputs := rfl
@[simp] theorem State.setBlink_eventNo (side : Side) (v : Bool) : (s.setBlink side v).eventNo = s.eventNo := rfl

@[simp] theorem State.setTgl_time (side : Side) (v : Word) : (s.setTgl side v).time = s.time := rfl
@[simp] theorem State.setTgl_pin (side : Side) (v : Word) : (s.setTgl side v).pin = s.pin := rfl
@[simp] theorem State.setTgl_start (side : Side) (v : Word) : (s.setTgl side v).start = s.start := rfl
@[simp] theorem State.setTgl_width (side : Side) (v : Word) : (s.setTgl side v).width = s.width := rfl
@[simp] theorem State.setTgl_mbx (side : Side) (v : Word) : (s.setTgl side v).mbx = s.mbx := rfl
@[simp] theorem State.setTgl_cmd (side : Side) (v : Word) : (s.setTgl side v).cmd = s.cmd := rfl
@[simp] theorem State.setTgl_blink (side : Side) (v : Word) : (s.setTgl side v).blink = s.blink := rfl
@[simp] theorem State.setTgl_tgl (side : Side) (v : Word) : (s.setTgl side v).tgl = s.tgl.set side v := rfl
@[simp] theorem State.setTgl_out (side : Side) (v : Word) : (s.setTgl side v).out = s.out := rfl
@[simp] theorem State.setTgl_trace (side : Side) (v : Word) : (s.setTgl side v).trace = s.trace := rfl
@[simp] theorem State.setTgl_results (side : Side) (v : Word) : (s.setTgl side v).results = s.results := rfl
@[simp] theorem State.setTgl_inputs (side : Side) (v : Word) : (s.setTgl side v).inputs = s.inputs := rfl
@[simp] theorem State.setTgl_eventNo (side : Side) (v : Word) : (s.setTgl side v).eventNo = s.eventNo := rfl

@[simp] theorem State.setOut_time (side : Side) (v : Bool) : (s.setOut side v).time = s.time := rfl
@[simp] theorem State.setOut_pin (side : Side) (v : Bool) : (s.setOut side v).pin = s.pin := rfl
@[simp] theorem State.setOut_start (side : Side) (v : Bool) : (s.setOut side v).start = s.start := rfl
@[simp] theorem State.setOut_width (side : Side) (v : Bool) : (s.setOut side v).width = s.width := rfl
@[simp] theorem State.setOut_mbx (side : Side) (v : Bool) : (s.setOut side v).mbx = s.mbx := rfl
@[simp] theorem State.setOut_cmd (side : Side) (v : Bool) : (s.setOut side v).cmd = s.cmd := rfl
@[simp] theorem State.setOut_blink (side : Side) (v : Bool) : (s.setOut side v).blink = s.blink := rfl
@[simp] theorem State.setOut_tgl (side : Side) (v : Bool) : (s.setOut side v).tgl = s.tgl := rfl
@[simp] theorem State.setOut_out (side : Side) (v : Bool) : (s.setOut side v).out = s.out.set side v := rfl
@[simp] theorem State.setOut_trace (side : Side) (v : Bool) : (s.setOut side v).trace = s.trace := rfl
@[simp] theorem State.setOut_results (side : Side) (v : Bool) : (s.setOut side v).results = s.results := rfl
@[simp] theorem State.setOut_inputs (side : Side) (v : Bool) : (s.setOut side v).inputs = s.inputs := rfl
@[simp] theorem State.setOut_eventNo (side : Side) (v : Bool) : (s.setOut side v).eventNo = s.eventNo := rfl

@[simp] theorem State.emit_time (c : MotionCommand) : (s.emit c).time = s.time := rfl
@[simp] theorem State.emit_pin (c : MotionCommand) : (s.emit c).pin = s.pin := rfl
@[simp] theorem State.emit_start (c : MotionCommand) : (s.emit c).start = s.start := rfl
@[simp] theorem State.emit_width (c : MotionCommand) : (s.emit c).width = s.width := rfl
@[simp] theorem State.emit_mbx (c : MotionCommand) : (s.emit c).mbx = s.mbx := rfl
@[simp] theorem State.emit_cmd (c : MotionCommand) : (s.emit c).cmd = s.cmd := rfl
@[simp] theorem State.emit_blink (c : MotionCommand) : (s.emit c).blink = s.blink := rfl
@[simp] theorem State.emit_tgl (c : MotionCommand) : (s.emit c).tgl = s.tgl := rfl
@[simp] theorem State.emit_out (c : MotionCommand) : (s.emit c).out = s.out := rfl
@[simp] theorem State.emit_trace (c : MotionCommand) : (s.emit c).trace = s.trace ++ [c] := rfl
@[simp] theorem State.emit_results (c : MotionCommand) : (s.emit c).results = s.results := rfl
@[simp] theorem State.emit_inputs (c : MotionCommand) : (s.emit c).inputs = s.inputs := rfl
@[simp] theorem State.emit_eventNo (c : MotionCommand) : (s.emit c).eventNo = s.eventNo := rfl

@[simp] theorem State.hand_time (r : Result) : (s.hand r).time = s.time := rfl
@[simp] theorem State.hand_pin (r : Result) : (s.hand r).pin = s.pin := rfl
@[simp] theorem State.hand_start (r : Result) : (s.hand r).start = s.start := rfl
@[simp] theorem State.hand_width (r : Result) : (s.hand r).width = s.width := rfl
@[simp] theorem State.hand_mbx (r : Result) : (s.hand r).mbx = s.mbx := rfl
@[simp] theorem State.hand_cmd (r : Result) : (s.hand r).cmd = s.cmd := rfl
@[simp] theorem State.hand_blink (r : Result) : (s.hand r).blink = s.blink := rfl
@[simp] theorem State.hand_tgl (r : Result) : (s.hand r).tgl = s.tgl := rfl
@[simp] theorem State.hand_out (r : Result) : (s.hand r).out = s.out := rfl
@[simp] theorem State.hand_trace (r : Result) : (s.hand r).trace = s.trace := rfl
@[simp] theorem State.hand_results (r : Result) : (s.hand r).results = s.results ++ [r] := rfl
@[simp] theorem State.hand_inputs (r : Result) : (s.hand r).inputs = s.inputs := rfl
@[simp] theorem State.hand_eventNo (r : Result) : (s.hand r).eventNo = s.eventNo := rfl

end Sys2Proof.Machine
end

