-- ==== Sys2Proof/Laws/Ops.lean ====
section
/-! SUPPORT. What each shared operation can do, said once. -/

namespace Sys2Proof.Machine

open Sys2Proof

/-! ### Taking a step where it is enabled (R11) -/

theorem whenEnabled_true (op : String) (t : State) : whenEnabled true op t = .next t := rfl

theorem whenEnabled_false (op : String) (t : State) :
    whenEnabled false op t = .refused (.notEnabled op) := rfl

/-- An enabled operation answers its state, one that is not enabled answers none. -/
theorem whenEnabled_eq_next {b : Bool} {op : String} {t u : State} :
    whenEnabled b op t = .next u ↔ b = true ∧ u = t := by
  cases b <;> simp [whenEnabled, eq_comm]

/-- The mailbox has room exactly while it holds nothing (R26). -/
@[simp] theorem hasRoom_iff {s : State} : s.hasRoom = true ↔ s.mbx = none := by
  unfold State.hasRoom; cases s.mbx <;> simp

/-- A `LINE` step that is taken found the mailbox empty (R130). -/
theorem acceptLine_eq_next {a : Option Message} {op : String} {s t : State} :
    s.acceptLine a op = .next t ↔ s.mbx = none ∧ t = { s with mbx := a } := by
  unfold State.acceptLine
  rw [whenEnabled_eq_next, hasRoom_iff]
  refine and_congr_right fun h => ?_
  cases a with
  | some m => rfl
  | none => simp only; rw [← h]

/-- A `MAP` row that is taken hands its result out and changes nothing else (R170). -/
theorem mapRow_eq_next {b : Bucket} {msg : Message} {r : Option MotionCommand} {op : String} {s t : State} :
    s.mapRow b msg r op = .next t ↔ bucketOf msg = b ∧ t = s.hand (.command r) := by
  unfold State.mapRow; rw [whenEnabled_eq_next, decide_eq_true_eq]

/-! ### The indicator registers -/

theorem steady_eq (level : Bool) (s : State) :
    s.steady level = { s with out := ⟨level, level⟩, blink := ⟨false, false⟩ } := rfl

theorem toggle_eq (side : Side) (t : Word) (s : State) :
    s.toggle side t =
      { s with out := s.out.set side (!s.out.get side), tgl := s.tgl.set side t } := rfl

/-- Everything a turn class does: the other side dark; entry, a due toggle, or nothing more (R193, R194). -/
theorem turn_eq (side : Side) (t : Word) (s : State) :
    s.turn side t =
      match s.blink.get side, toggleDue t (s.tgl.get side) with
      | false, _ =>
        { s with out := s.out.set side.other false,
                 blink := (s.blink.set side.other false).set side true,
                 tgl := s.tgl.set side t }
      | true, true =>
        { s with out := (s.out.set side.other false).set side (!s.out.get side),
                 blink := s.blink.set side.other false,
                 tgl := s.tgl.set side t }
      | true, false =>
        { s with out := s.out.set side.other false, blink := s.blink.set side.other false } := by
  unfold State.turn State.enterTurn State.toggleIfDue State.toggle
  cases h : s.blink.get side <;> cases h' : toggleDue t (s.tgl.get side) <;> simp [h, h'] <;> rfl

@[simp] theorem turn_time (side : Side) (t : Word) (s : State) : (s.turn side t).time = s.time := by rw [turn_eq]; split <;> rfl
@[simp] theorem turn_pin (side : Side) (t : Word) (s : State) : (s.turn side t).pin = s.pin := by rw [turn_eq]; split <;> rfl
@[simp] theorem turn_start (side : Side) (t : Word) (s : State) : (s.turn side t).start = s.start := by rw [turn_eq]; split <;> rfl
@[simp] theorem turn_width (side : Side) (t : Word) (s : State) : (s.turn side t).width = s.width := by rw [turn_eq]; split <;> rfl
@[simp] theorem turn_mbx (side : Side) (t : Word) (s : State) : (s.turn side t).mbx = s.mbx := by rw [turn_eq]; split <;> rfl
@[simp] theorem turn_cmd (side : Side) (t : Word) (s : State) : (s.turn side t).cmd = s.cmd := by rw [turn_eq]; split <;> rfl
@[simp] theorem turn_trace (side : Side) (t : Word) (s : State) : (s.turn side t).trace = s.trace := by rw [turn_eq]; split <;> rfl
@[simp] theorem turn_results (side : Side) (t : Word) (s : State) : (s.turn side t).results = s.results := by rw [turn_eq]; split <;> rfl
@[simp] theorem turn_inputs (side : Side) (t : Word) (s : State) : (s.turn side t).inputs = s.inputs := by rw [turn_eq]; split <;> rfl
@[simp] theorem turn_eventNo (side : Side) (t : Word) (s : State) : (s.turn side t).eventNo = s.eventNo := by rw [turn_eq]; split <;> rfl

/-- The indicator phase writes the indicator registers only (R190). -/
theorem indicate_eq (t : Word) (s : State) :
    s.indicate t =
      { s with out := (s.indicate t).out, blink := (s.indicate t).blink, tgl := (s.indicate t).tgl } := by
  unfold State.indicate
  split
  · rfl
  · rw [turn_eq]; repeat' split
    all_goals rfl
  · rfl

@[simp] theorem indicate_time (t : Word) (s : State) : (s.indicate t).time = s.time := by rw [indicate_eq]
@[simp] theorem indicate_pin (t : Word) (s : State) : (s.indicate t).pin = s.pin := by rw [indicate_eq]
@[simp] theorem indicate_start (t : Word) (s : State) : (s.indicate t).start = s.start := by rw [indicate_eq]
@[simp] theorem indicate_width (t : Word) (s : State) : (s.indicate t).width = s.width := by rw [indicate_eq]
@[simp] theorem indicate_mbx (t : Word) (s : State) : (s.indicate t).mbx = s.mbx := by rw [indicate_eq]
@[simp] theorem indicate_cmd (t : Word) (s : State) : (s.indicate t).cmd = s.cmd := by rw [indicate_eq]
@[simp] theorem indicate_trace (t : Word) (s : State) : (s.indicate t).trace = s.trace := by rw [indicate_eq]
@[simp] theorem indicate_results (t : Word) (s : State) : (s.indicate t).results = s.results := by rw [indicate_eq]
@[simp] theorem indicate_inputs (t : Word) (s : State) : (s.indicate t).inputs = s.inputs := by rw [indicate_eq]
@[simp] theorem indicate_eventNo (t : Word) (s : State) : (s.indicate t).eventNo = s.eventNo := by rw [indicate_eq]

/-! ### Issuing and the map -/

theorem issue_eq (c : MotionCommand) (s : State) :
    s.issue c = { s with cmd := c, trace := s.trace ++ [c] } := rfl

/-- The clamped pair of the manual path, as numbers (R154). -/
theorem manual_cmd (st h : Word) (s : State) :
    (s.manual st h).cmd.steer.toNat = max 1000 (min st.toNat 2000) ∧
      (s.manual st h).cmd.speed.toNat = max 1440 (min h.toNat 1560) := by
  have h1 := clampWidth_toNat st (lo := 1000) (hi := 2000) (by decide) (by decide)
  have h2 := clampWidth_toNat h (lo := 1440) (hi := 1560) (by decide) (by decide)
  exact ⟨by simpa [State.manual, State.issue] using h1, by simpa [State.manual, State.issue] using h2⟩

theorem manual_eq (st h : Word) (s : State) :
    s.manual st h =
      { s with cmd := (s.manual st h).cmd, trace := s.trace ++ [(s.manual st h).cmd] } := by
  unfold State.manual; exact issue_eq _ _

@[simp] theorem manual_time (st h : Word) (s : State) : (s.manual st h).time = s.time := by rw [manual_eq]
@[simp] theorem manual_pin (st h : Word) (s : State) : (s.manual st h).pin = s.pin := by rw [manual_eq]
@[simp] theorem manual_start (st h : Word) (s : State) : (s.manual st h).start = s.start := by rw [manual_eq]
@[simp] theorem manual_width (st h : Word) (s : State) : (s.manual st h).width = s.width := by rw [manual_eq]
@[simp] theorem manual_mbx (st h : Word) (s : State) : (s.manual st h).mbx = s.mbx := by rw [manual_eq]
@[simp] theorem manual_blink (st h : Word) (s : State) : (s.manual st h).blink = s.blink := by rw [manual_eq]
@[simp] theorem manual_tgl (st h : Word) (s : State) : (s.manual st h).tgl = s.tgl := by rw [manual_eq]
@[simp] theorem manual_out (st h : Word) (s : State) : (s.manual st h).out = s.out := by rw [manual_eq]
@[simp] theorem manual_results (st h : Word) (s : State) : (s.manual st h).results = s.results := by rw [manual_eq]
@[simp] theorem manual_inputs (st h : Word) (s : State) : (s.manual st h).inputs = s.inputs := by rw [manual_eq]
@[simp] theorem manual_eventNo (st h : Word) (s : State) : (s.manual st h).eventNo = s.eventNo := by rw [manual_eq]

theorem manual_trace (st h : Word) (s : State) :
    (s.manual st h).trace = s.trace ++ [(s.manual st h).cmd] := by
  conv_lhs => rw [manual_eq]

/-- The issued pair depends on the two operands alone (R154). -/
theorem manual_cmd_eq (st h : Word) (s : State) :
    (s.manual st h).cmd = ⟨clampWidth st 1000 2000, clampWidth h 1440 1560⟩ := by
  unfold State.manual
  rw [issue_eq]

/-- The proportional law as a number (R172, R173). -/
theorem propSteer_toNat (d : Int) :
    ((propSteer d).toNat : Int) = max 1400 (min (1500 - 40 * d) 1600) := by
  unfold propSteer
  simp only [Config.mapCenter, Config.mapGain, Config.propMin, Config.propMax]
  rw [clamp_eq (by decide), targetOfInt_toNat] <;> omega

/-- The map of a deviation, by the range that holds it (R170). -/
theorem mapMessage_dev (d : Int) :
    mapMessage (.dev d) =
      if d ≤ -100 then some ⟨1200, 1430⟩
      else if d ≤ -80 then some ⟨1200, 1440⟩
      else if d ≤ -40 then some ⟨2000, 1550⟩
      else if d < 0 then some ⟨propSteer d, 1560⟩
      else if d = 0 then none
      else if d < 40 then some ⟨propSteer d, 1560⟩
      else if d < 80 then some ⟨1000, 1550⟩
      else if d < 100 then some ⟨1800, 1440⟩
      else some ⟨1800, 1430⟩ := by
  simp only [mapMessage, bucketOf, Config.b1, Config.b2, Config.b3]
  repeat' split
  all_goals first | rfl | contradiction | (exfalso; simp_all)

/-- The effect of `AUTO.CONSUME` by what the map gives (R155). -/
theorem consume_eq (msg : Message) (s : State) :
    s.consume msg =
      match mapMessage msg with
      | some c => { s with mbx := none, cmd := c, trace := s.trace ++ [c],
                           results := s.results ++ [.command (some c)] }
      | none => { s with mbx := none, results := s.results ++ [.command none] } := by
  unfold State.consume
  cases mapMessage msg <;> rfl

/-- Everything phase 2 of a cycle does, by mode and mailbox (R150, R154 to R156). -/
theorem arbitrate_eq (s : State) :
    s.arbitrate s.snapshot =
      if (s.width.get .mode).toNat ≤ 1500 then
        (s.hand (.mode .manual)).manual (s.width.get .steer) (s.width.get .throttle)
      else
        match s.mbx with
        | some msg => (s.hand (.mode .autonomous)).consume msg
        | none => s.hand (.mode .autonomous) := by
  unfold State.arbitrate State.snapshot
  dsimp only
  split
  · next h => rw [if_pos (modeOf_eq_manual.1 h)]
  · next h => exact (if_neg (by have := modeOf_eq_autonomous.1 h; omega)).symm

@[simp] theorem consume_time (m : Message) (s : State) : (s.consume m).time = s.time := by rw [consume_eq]; split <;> rfl
@[simp] theorem consume_pin (m : Message) (s : State) : (s.consume m).pin = s.pin := by rw [consume_eq]; split <;> rfl
@[simp] theorem consume_start (m : Message) (s : State) : (s.consume m).start = s.start := by rw [consume_eq]; split <;> rfl
@[simp] theorem consume_width (m : Message) (s : State) : (s.consume m).width = s.width := by rw [consume_eq]; split <;> rfl
@[simp] theorem consume_blink (m : Message) (s : State) : (s.consume m).blink = s.blink := by rw [consume_eq]; split <;> rfl
@[simp] theorem consume_tgl (m : Message) (s : State) : (s.consume m).tgl = s.tgl := by rw [consume_eq]; split <;> rfl
@[simp] theorem consume_out (m : Message) (s : State) : (s.consume m).out = s.out := by rw [consume_eq]; split <;> rfl
@[simp] theorem consume_inputs (m : Message) (s : State) : (s.consume m).inputs = s.inputs := by rw [consume_eq]; split <;> rfl
@[simp] theorem consume_eventNo (m : Message) (s : State) : (s.consume m).eventNo = s.eventNo := by rw [consume_eq]; split <;> rfl

@[simp] theorem consume_mbx (m : Message) (s : State) : (s.consume m).mbx = none := by
  rw [consume_eq]; split <;> rfl

@[simp] theorem arbitrate_time (s : State) : (s.arbitrate s.snapshot).time = s.time := by
  rw [arbitrate_eq]; split <;> [simp; (split <;> simp)]
@[simp] theorem arbitrate_pin (s : State) : (s.arbitrate s.snapshot).pin = s.pin := by
  rw [arbitrate_eq]; split <;> [simp; (split <;> simp)]
@[simp] theorem arbitrate_start (s : State) : (s.arbitrate s.snapshot).start = s.start := by
  rw [arbitrate_eq]; split <;> [simp; (split <;> simp)]
@[simp] theorem arbitrate_width (s : State) : (s.arbitrate s.snapshot).width = s.width := by
  rw [arbitrate_eq]; split <;> [simp; (split <;> simp)]
@[simp] theorem arbitrate_blink (s : State) : (s.arbitrate s.snapshot).blink = s.blink := by
  rw [arbitrate_eq]; split <;> [simp; (split <;> simp)]
@[simp] theorem arbitrate_tgl (s : State) : (s.arbitrate s.snapshot).tgl = s.tgl := by
  rw [arbitrate_eq]; split <;> [simp; (split <;> simp)]
@[simp] theorem arbitrate_out (s : State) : (s.arbitrate s.snapshot).out = s.out := by
  rw [arbitrate_eq]; split <;> [simp; (split <;> simp)]
@[simp] theorem arbitrate_inputs (s : State) : (s.arbitrate s.snapshot).inputs = s.inputs := by
  rw [arbitrate_eq]; split <;> [simp; (split <;> simp)]
@[simp] theorem arbitrate_eventNo (s : State) : (s.arbitrate s.snapshot).eventNo = s.eventNo := by
  rw [arbitrate_eq]; split <;> [simp; (split <;> simp)]

/-- A cycle empties the mailbox in autonomous mode and leaves it alone in manual mode (R154, R155). -/
theorem arbitrate_mbx (s : State) :
    (s.arbitrate s.snapshot).mbx = if (s.width.get .mode).toNat ≤ 1500 then s.mbx else none := by
  rw [arbitrate_eq]; split <;> [simp; (split <;> simp [*])]

end Sys2Proof.Machine
end

