-- ==== Sys2Proof/Laws/Exec.lean ====
section
/-! SUPPORT. One inversion lemma per operation: when `exec` answers a next state, and which. -/

namespace Sys2Proof.Machine

open Sys2Proof

variable {s t : State}

theorem exec_tick : exec .tick s = .next t ↔ t = { s with time := s.time + 1 } := by
  simp only [exec, execTick, Host.Outcome.next.injEq]; exact eq_comm

theorem exec_cycle : exec .cycle s = .next t ↔ t = (s.arbitrate s.snapshot).indicate s.time := by
  simp only [exec, execCycle, Host.Outcome.next.injEq]; exact eq_comm

theorem exec_reset {pins : PerChannel Bool} :
    exec (.reset pins) s = .next t ↔
      t = { State.resetWith pins with
              trace := s.trace, results := s.results, inputs := s.inputs, eventNo := s.eventNo } := by
  simp only [exec, execReset, Host.Outcome.next.injEq]; exact eq_comm

theorem exec_rdw {c : Channel} :
    exec (.rdw c) s = .next t ↔ t = s.hand (.width c (s.width.get c)) := by
  simp only [exec, execRdw, Host.Outcome.next.injEq]; exact eq_comm

theorem exec_rise {c : Channel} :
    exec (.rise c) s = .next t ↔
      s.pin.get c = false ∧ t = { s with pin := s.pin.set c true, start := s.start.set c s.time } := by
  simp only [exec, execRise, whenEnabled_eq_next, Bool.not_eq_true']; rfl

theorem exec_fall {c : Channel} :
    exec (.fall c) s = .next t ↔
      s.pin.get c = true ∧
        t = { s with pin := s.pin.set c false, width := s.width.set c (s.time - s.start.get c) } := by
  simp only [exec, execFall, whenEnabled_eq_next]; rfl

theorem exec_noedgeLow {c : Channel} : exec (.noedgeLow c) s = .next t ↔ t = s := by
  simp only [exec, execNoedgeLow, Host.Outcome.next.injEq]; exact eq_comm

theorem exec_noedgeHigh {c : Channel} : exec (.noedgeHigh c) s = .next t ↔ t = s := by
  simp only [exec, execNoedgeHigh, Host.Outcome.next.injEq]; exact eq_comm

theorem exec_msgS : exec .msgS s = .next t ↔ s.mbx = none ∧ t = { s with mbx := some .stop } := by
  simp only [exec, execMsgS, acceptLine_eq_next]

theorem exec_msgN : exec .msgN s = .next t ↔ s.mbx = none ∧ t = { s with mbx := some .stop } := by
  simp only [exec, execMsgN, acceptLine_eq_next]

theorem exec_msgD {d : Int} :
    exec (.msgD d) s = .next t ↔ s.mbx = none ∧ t = { s with mbx := some (.dev d) } := by
  simp only [exec, execMsgD, acceptLine_eq_next]

theorem exec_msgIgnore : exec .msgIgnore s = .next t ↔ s.mbx = none ∧ t = { s with mbx := none } := by
  simp only [exec, execMsgIgnore, acceptLine_eq_next]

theorem exec_selAuto {m : Word} :
    exec (.selAuto m) s = .next t ↔ modeOf m = .autonomous ∧ t = s.hand (.mode .autonomous) := by
  simp only [exec, execSelAuto, whenEnabled_eq_next, decide_eq_true_eq]

theorem exec_selManual {m : Word} :
    exec (.selManual m) s = .next t ↔ modeOf m = .manual ∧ t = s.hand (.mode .manual) := by
  simp only [exec, execSelManual, whenEnabled_eq_next, decide_eq_true_eq]

theorem exec_manual {st h : Word} :
    exec (.manual st h) s = .next t ↔ s.mode = .manual ∧ t = s.manual st h := by
  simp only [exec, execManual, whenEnabled_eq_next, decide_eq_true_eq]

theorem exec_autoConsume :
    exec .autoConsume s = .next t ↔ ∃ msg, s.mbx = some msg ∧ s.mode = .autonomous ∧ t = s.consume msg := by
  simp only [exec, execAutoConsume]
  cases s.mbx <;> simp [whenEnabled_eq_next]

theorem exec_autoHold :
    exec .autoHold s = .next t ↔ s.mode = .autonomous ∧ s.mbx = none ∧ t = s := by
  simp only [exec, execAutoHold, whenEnabled_eq_next, Bool.and_eq_true, decide_eq_true_eq,
    Option.isNone_iff_eq_none, and_assoc]

theorem exec_mapStop :
    exec .mapStop s = .next t ↔ bucketOf .stop = .stop ∧ t = s.hand (.command rowStop) := by
  simp only [exec, execMapStop, mapRow_eq_next]

theorem exec_mapPropPos {d : Int} :
    exec (.mapPropPos d) s = .next t ↔ bucketOf (.dev d) = .propPos ∧ t = s.hand (.command (rowPropPos d)) := by
  simp only [exec, execMapPropPos, mapRow_eq_next]

theorem exec_mapPropNeg {d : Int} :
    exec (.mapPropNeg d) s = .next t ↔ bucketOf (.dev d) = .propNeg ∧ t = s.hand (.command (rowPropNeg d)) := by
  simp only [exec, execMapPropNeg, mapRow_eq_next]

theorem exec_mapLockPos {d : Int} :
    exec (.mapLockPos d) s = .next t ↔ bucketOf (.dev d) = .lockPos ∧ t = s.hand (.command rowLockPos) := by
  simp only [exec, execMapLockPos, mapRow_eq_next]

theorem exec_mapLockNeg {d : Int} :
    exec (.mapLockNeg d) s = .next t ↔ bucketOf (.dev d) = .lockNeg ∧ t = s.hand (.command rowLockNeg) := by
  simp only [exec, execMapLockNeg, mapRow_eq_next]

theorem exec_mapRevPos {d : Int} :
    exec (.mapRevPos d) s = .next t ↔ bucketOf (.dev d) = .revPos ∧ t = s.hand (.command rowRevPos) := by
  simp only [exec, execMapRevPos, mapRow_eq_next]

theorem exec_mapRevNeg {d : Int} :
    exec (.mapRevNeg d) s = .next t ↔ bucketOf (.dev d) = .revNeg ∧ t = s.hand (.command rowRevNeg) := by
  simp only [exec, execMapRevNeg, mapRow_eq_next]

theorem exec_mapFullrevPos {d : Int} :
    exec (.mapFullrevPos d) s = .next t ↔ bucketOf (.dev d) = .fullrevPos ∧ t = s.hand (.command rowFullrevPos) := by
  simp only [exec, execMapFullrevPos, mapRow_eq_next]

theorem exec_mapFullrevNeg {d : Int} :
    exec (.mapFullrevNeg d) s = .next t ↔ bucketOf (.dev d) = .fullrevNeg ∧ t = s.hand (.command rowFullrevNeg) := by
  simp only [exec, execMapFullrevNeg, mapRow_eq_next]

theorem exec_mapZero :
    exec .mapZero s = .next t ↔ bucketOf (.dev 0) = .zero ∧ t = s.hand (.command rowZero) := by
  simp only [exec, execMapZero, mapRow_eq_next]

theorem exec_clsReversing :
    exec .clsReversing s = .next t ↔ classOf s.cmd = .reversing ∧ t = s.steady true := by
  simp only [exec, execClsReversing, whenEnabled_eq_next, decide_eq_true_eq]

theorem exec_clsTurnLeft {w : Word} :
    exec (.clsTurnLeft w) s = .next t ↔ classOf s.cmd = .turn .left ∧ t = s.turn .left w := by
  simp only [exec, execClsTurnLeft, whenEnabled_eq_next, decide_eq_true_eq]

theorem exec_clsTurnRight {w : Word} :
    exec (.clsTurnRight w) s = .next t ↔ classOf s.cmd = .turn .right ∧ t = s.turn .right w := by
  simp only [exec, execClsTurnRight, whenEnabled_eq_next, decide_eq_true_eq]

theorem exec_clsNeutral :
    exec .clsNeutral s = .next t ↔ classOf s.cmd = .neutral ∧ t = s.steady false := by
  simp only [exec, execClsNeutral, whenEnabled_eq_next, decide_eq_true_eq]

theorem exec_blinkToggle {side : Side} {w : Word} :
    exec (.blinkToggle side w) s = .next t ↔
      classOf s.cmd = .turn side ∧ s.blink.get side = true ∧ toggleDue w (s.tgl.get side) = true ∧
        t = s.toggle side w := by
  simp only [exec, execBlinkToggle, whenEnabled_eq_next, Bool.and_eq_true, decide_eq_true_eq, and_assoc]

/-- The mode of a state, by its MODE width (R85). -/
theorem mode_eq_manual : s.mode = .manual ↔ (s.width.get .mode).toNat ≤ 1500 := modeOf_eq_manual

theorem mode_eq_autonomous : s.mode = .autonomous ↔ 1500 < (s.width.get .mode).toNat :=
  modeOf_eq_autonomous

end Sys2Proof.Machine
end

