-- ==== Sys2Proof/Laws/Fetch.lean ====
section
/-! SUPPORT. Which events can happen, which one a step takes, and that taking it changes no register. -/

namespace Sys2Proof.Machine

open Sys2Proof

@[simp] theorem channel_ofIndex_index (c : Channel) : Channel.ofIndex c.index = some c := by
  cases c <;> rfl

/-- An index names a channel exactly when it is that channel's index (R25, R81). -/
theorem channel_ofIndex_eq_some {i : BitVec 3} {c : Channel} : Channel.ofIndex i = some c ↔ i = c.index := by
  revert i; cases c <;> decide

/-- Indices of `N_CH` or more name no channel (R62). -/
theorem channel_ofIndex_eq_none {i : BitVec 3} : Channel.ofIndex i = none ↔ 5 ≤ i.toNat := by
  revert i; decide

variable (s : State)

@[simp] theorem canHappen_tick : s.canHappen .tick = true := rfl

@[simp] theorem canHappen_cycleGo : s.canHappen .cycleGo = true := rfl

@[simp] theorem canHappen_rst (levels : PerChannel Bool) : s.canHappen (.rst levels) = true := rfl

@[simp] theorem canHappen_rdw (sel : BitVec 3) : s.canHappen (.rdw sel) = (Channel.ofIndex sel).isSome := rfl

@[simp] theorem canHappen_line (b : List Byte) : s.canHappen (.line b) = s.hasRoom := rfl

/-- A pin event can happen when its `p` is the pin's level (R81). -/
theorem canHappen_pin {s : State} {code : BitVec 5} :
    s.canHappen (.pin code) = true ↔
      ∃ c, Channel.ofIndex (code.extractLsb' 2 3) = some c ∧ s.pin.get c = code.getLsbD 1 := by
  unfold State.canHappen
  dsimp only
  cases Channel.ofIndex (code.extractLsb' 2 3) with
  | none => simp
  | some c =>
    rw [beq_iff_eq]
    exact ⟨fun h => ⟨c, rfl, h.symm⟩, fun ⟨_, hc, h⟩ => by cases hc; exact h.symm⟩

/-- The event a step takes can happen (R11). -/
theorem canHappen_nextInput : s.canHappen s.nextInput = true := by
  unfold State.nextInput State.freeInput
  cases h : s.inputs.find? s.canHappen with
  | some e => exact List.find?_some h
  | none => rw [Option.getD_none]; split <;> [assumption; rfl]

/-- The first event lined up is taken when it can happen. -/
theorem fetch_cons {s : State} {e : Input} {rest : List Input} (h : s.inputs = e :: rest)
    (he : s.canHappen e = true) : s.nextInput = e ∧ s.afterFetch = { s with inputs := rest } := by
  simp [State.nextInput, State.afterFetch, h, he]

@[simp] theorem afterFetch_time : s.afterFetch.time = s.time := by unfold State.afterFetch; split <;> rfl
@[simp] theorem afterFetch_pin : s.afterFetch.pin = s.pin := by unfold State.afterFetch; split <;> rfl
@[simp] theorem afterFetch_start : s.afterFetch.start = s.start := by unfold State.afterFetch; split <;> rfl
@[simp] theorem afterFetch_width : s.afterFetch.width = s.width := by unfold State.afterFetch; split <;> rfl
@[simp] theorem afterFetch_mbx : s.afterFetch.mbx = s.mbx := by unfold State.afterFetch; split <;> rfl
@[simp] theorem afterFetch_cmd : s.afterFetch.cmd = s.cmd := by unfold State.afterFetch; split <;> rfl
@[simp] theorem afterFetch_blink : s.afterFetch.blink = s.blink := by unfold State.afterFetch; split <;> rfl
@[simp] theorem afterFetch_tgl : s.afterFetch.tgl = s.tgl := by unfold State.afterFetch; split <;> rfl
@[simp] theorem afterFetch_out : s.afterFetch.out = s.out := by unfold State.afterFetch; split <;> rfl
@[simp] theorem afterFetch_trace : s.afterFetch.trace = s.trace := by unfold State.afterFetch; split <;> rfl
@[simp] theorem afterFetch_results : s.afterFetch.results = s.results := by
  unfold State.afterFetch; split <;> rfl

/-- A step that takes a decoded event runs its operation. -/
theorem step_of_decode {s : State} {i : Instr} (h : decodeInput s.nextInput = .ok i) :
    step s = exec i s.afterFetch := by
  unfold step; rw [h]

end Sys2Proof.Machine
end

