-- ==== Sys2Proof/Laws/PerInstr.lean ====
section
/-! SUPPORT. Per instruction: the encoder lays every operation in the format its row of the opcode table has
(R80). -/

namespace Sys2Proof.Laws

open Sys2Proof

/-- The code of an operation belongs to the operation's format. -/
def Format.Statement (i : Instr) : Prop := (encode i).format = i.format

theorem Format.tick : Format.Statement .tick := rfl

theorem Format.cycle : Format.Statement .cycle := rfl

theorem Format.reset (pins : PerChannel Bool) : Format.Statement (.reset pins) := rfl

theorem Format.rdw (c : Channel) : Format.Statement (.rdw c) := rfl

theorem Format.rise (c : Channel) : Format.Statement (.rise c) := rfl

theorem Format.fall (c : Channel) : Format.Statement (.fall c) := rfl

theorem Format.noedgeLow (c : Channel) : Format.Statement (.noedgeLow c) := rfl

theorem Format.noedgeHigh (c : Channel) : Format.Statement (.noedgeHigh c) := rfl

theorem Format.msgS : Format.Statement .msgS := rfl

theorem Format.msgN : Format.Statement .msgN := rfl

theorem Format.msgD (d : Int) : Format.Statement (.msgD d) := rfl

theorem Format.msgIgnore : Format.Statement .msgIgnore := rfl

theorem Format.selAuto (m : Word) : Format.Statement (.selAuto m) := rfl

theorem Format.selManual (m : Word) : Format.Statement (.selManual m) := rfl

theorem Format.manual (s h : Word) : Format.Statement (.manual s h) := rfl

theorem Format.autoConsume : Format.Statement .autoConsume := rfl

theorem Format.autoHold : Format.Statement .autoHold := rfl

theorem Format.mapStop : Format.Statement .mapStop := rfl

theorem Format.mapPropPos (d : Int) : Format.Statement (.mapPropPos d) := rfl

theorem Format.mapPropNeg (d : Int) : Format.Statement (.mapPropNeg d) := rfl

theorem Format.mapLockPos (d : Int) : Format.Statement (.mapLockPos d) := rfl

theorem Format.mapLockNeg (d : Int) : Format.Statement (.mapLockNeg d) := rfl

theorem Format.mapRevPos (d : Int) : Format.Statement (.mapRevPos d) := rfl

theorem Format.mapRevNeg (d : Int) : Format.Statement (.mapRevNeg d) := rfl

theorem Format.mapFullrevPos (d : Int) : Format.Statement (.mapFullrevPos d) := rfl

theorem Format.mapFullrevNeg (d : Int) : Format.Statement (.mapFullrevNeg d) := rfl

theorem Format.mapZero : Format.Statement .mapZero := rfl

theorem Format.clsReversing : Format.Statement .clsReversing := rfl

theorem Format.clsTurnLeft (t : Word) : Format.Statement (.clsTurnLeft t) := rfl

theorem Format.clsTurnRight (t : Word) : Format.Statement (.clsTurnRight t) := rfl

theorem Format.clsNeutral : Format.Statement .clsNeutral := rfl

theorem Format.blinkToggle (side : Side) (t : Word) : Format.Statement (.blinkToggle side t) := rfl

end Sys2Proof.Laws
end

