-- ==== Sys2Proof/Tests/Slice0.lean ====
section
/-! SUPPORT. Tests: ill-formed terms, codes written out from 30_encoding.md, single steps on the vectors of
95_test_vectors.md (V and S numbers), and a witness for the hypotheses of every statement that has any. -/

namespace Sys2Proof.Tests

open Sys2Proof Sys2Proof.Machine

/-! ### Helpers -/

/-- The operation is taken and the state after it passes the check. -/
def taken (a : Answer) (check : State → Bool) : Bool :=
  match a with
  | .next t => check t
  | .fault _ => false
  | .refused _ => false

/-- The operation is not taken: it is not enabled. -/
def notTaken (a : Answer) : Bool :=
  match a with
  | .next _ => false
  | .fault _ => false
  | .refused (.notEnabled _) => true
  | .refused (.notDecoded _) => false
  | .refused (.notModelled _) => false

/-- The code decodes to the operation. -/
def reads (a : Except Reject Instr) (i : Instr) : Bool :=
  match a with
  | .ok j => decide (j = i)
  | .error _ => false

/-- The code names no operation. -/
def readsNothing (a : Except Reject Instr) : Bool :=
  match a with
  | .ok _ => false
  | .error _ => true

/-- Reset state with the widths of MODE, STEER and THROTTLE. -/
def widths (m s h : Word) : State := { State.reset with width := ⟨s, h, m, 1500, 1500⟩ }

/-- Reset state in autonomous mode with a mailbox. -/
def auto (m : Option Message) : State := { widths 1800 1100 1450 with mbx := m }

/-- Reset state with a command. -/
def commanded (st sp : Target) : State := { State.reset with cmd := ⟨st, sp⟩ }

/-- A command and the indicator registers, in the order of V141. -/
def lamps (st sp : Target) (bl br : Bool) (tl tr : Word) (ol or : Bool) : State :=
  { State.reset with cmd := ⟨st, sp⟩, blink := ⟨bl, br⟩, tgl := ⟨tl, tr⟩, out := ⟨ol, or⟩ }

/-- The indicator registers are these. -/
def showsLamps (bl br : Bool) (tl tr : Word) (ol or : Bool) (t : State) : Bool :=
  decide (t.blink = ⟨bl, br⟩) && decide (t.tgl = ⟨tl, tr⟩) && decide (t.out = ⟨ol, or⟩)

/-- The command and the issues are these. -/
def issues (st sp : Target) (tr : List MotionCommand) (t : State) : Bool :=
  decide (t.cmd = ⟨st, sp⟩) && decide (t.trace = tr)

/-! ### Well-formedness: an ill-formed term for each check, and the bounds that pass -/

theorem test_wf_mode : wellFormed (.selAuto 1500) = false ∧ wellFormed (.selAuto 1501) = true ∧
    wellFormed (.selManual 1501) = false ∧ wellFormed (.selManual 1500) = true := by decide

theorem test_wf_prop : wellFormed (.mapPropPos 0) = false ∧ wellFormed (.mapPropPos 40) = false ∧
    wellFormed (.mapPropPos 1) = true ∧ wellFormed (.mapPropPos 39) = true ∧
    wellFormed (.mapPropNeg 0) = false ∧ wellFormed (.mapPropNeg (-40)) = false ∧
    wellFormed (.mapPropNeg (-1)) = true ∧ wellFormed (.mapPropNeg (-39)) = true := by decide

theorem test_wf_lock : wellFormed (.mapLockPos 39) = false ∧ wellFormed (.mapLockPos 80) = false ∧
    wellFormed (.mapLockPos 40) = true ∧ wellFormed (.mapLockPos 79) = true ∧
    wellFormed (.mapLockNeg (-39)) = false ∧ wellFormed (.mapLockNeg (-80)) = false ∧
    wellFormed (.mapLockNeg (-40)) = true ∧ wellFormed (.mapLockNeg (-79)) = true := by decide

theorem test_wf_rev : wellFormed (.mapRevPos 79) = false ∧ wellFormed (.mapRevPos 100) = false ∧
    wellFormed (.mapRevPos 80) = true ∧ wellFormed (.mapRevPos 99) = true ∧
    wellFormed (.mapRevNeg (-79)) = false ∧ wellFormed (.mapRevNeg (-100)) = false ∧
    wellFormed (.mapRevNeg (-80)) = true ∧ wellFormed (.mapRevNeg (-99)) = true := by decide

theorem test_wf_fullrev : wellFormed (.mapFullrevPos 99) = false ∧ wellFormed (.mapFullrevPos 100) = true ∧
    wellFormed (.mapFullrevNeg (-99)) = false ∧ wellFormed (.mapFullrevNeg (-100)) = true := by decide

/-! ### Decoding -/

/-- R81: `ccc p n`, with the codes of programs P1 to P4. -/
theorem test_decode_pin :
    reads (decodeInput (.pin 0b01001#5)) (.rise .mode) ∧ reads (decodeInput (.pin 0b01010#5)) (.fall .mode) ∧
    reads (decodeInput (.pin 0b00001#5)) (.rise .steer) ∧ reads (decodeInput (.pin 0b00110#5)) (.fall .throttle) ∧
    reads (decodeInput (.pin 0b01100#5)) (.noedgeLow .aux1) ∧
    reads (decodeInput (.pin 0b10011#5)) (.noedgeHigh .aux2) ∧
    readsNothing (decodeInput (.pin 0b10101#5)) ∧ readsNothing (decodeInput (.pin 0b11110#5)) := by decide

/-- R89, R40. -/
theorem test_decode_event :
    reads (decodeInput .tick) .tick ∧ reads (decodeInput .cycleGo) .cycle ∧
    reads (decodeInput (.rst ⟨false, false, true, false, false⟩)) (.reset ⟨false, false, true, false, false⟩) ∧
    reads (decodeInput (.rdw 2)) (.rdw .mode) ∧ readsNothing (decodeInput (.rdw 5)) := by decide

/-- V20 to V25. -/
theorem test_decode_markers :
    decodeLine [0x53#8] = .msgS ∧ decodeLine [0x4E#8] = .msgN ∧ decodeLine [0x53#8, 0x0A#8] = .msgS ∧
    decodeLine [0x20#8, 0x53#8, 0x0D#8, 0x0A#8] = .msgS ∧
    decodeLine [0x09#8, 0x4E#8, 0x20#8, 0x0A#8] = .msgN ∧ decodeLine [0x4E#8, 0x0D#8] = .msgN := by decide

/-- V31 to V39. -/
theorem test_decode_deviation :
    decodeLine [0x44#8, 0x3A#8, 0x34#8, 0x35#8] = .msgD 45 ∧
    decodeLine [0x44#8, 0x3A#8, 0x2D#8, 0x34#8, 0x35#8] = .msgD (-45) ∧
    decodeLine [0x44#8, 0x3A#8, 0x2B#8, 0x34#8, 0x35#8] = .msgD 45 ∧
    decodeLine [0x44#8, 0x3A#8, 0x30#8] = .msgD 0 ∧
    decodeLine [0x44#8, 0x3A#8, 0x2D#8, 0x30#8] = .msgD 0 ∧
    decodeLine [0x44#8, 0x3A#8, 0x30#8, 0x30#8, 0x37#8] = .msgD 7 ∧
    decodeLine [0x44#8, 0x3A#8, 0x2D#8, 0x30#8, 0x30#8, 0x37#8] = .msgD (-7) := by decide

/-- V40 to V44. -/
theorem test_decode_deviation_long :
    decodeLine (0x44#8 :: 0x3A#8 :: List.replicate 20 0x39#8) = .msgD 99999999999999999999 ∧
    decodeLine [0x44#8, 0x3A#8, 0x34#8, 0x35#8, 0x20#8] = .msgD 45 ∧
    decodeLine [0x20#8, 0x20#8, 0x44#8, 0x3A#8, 0x34#8, 0x35#8] = .msgD 45 ∧
    decodeLine [0x44#8, 0x3A#8, 0x2D#8, 0x31#8, 0x30#8, 0x30#8] = .msgD (-100) ∧
    decodeLine [0x44#8, 0x3A#8, 0x31#8, 0x30#8, 0x30#8] = .msgD 100 := by decide

/-- V26 to V30, V45 to V50. -/
theorem test_decode_ignored :
    decodeLine [0x73#8] = .msgIgnore ∧ decodeLine [0x6E#8] = .msgIgnore ∧
    decodeLine [0x53#8, 0x53#8] = .msgIgnore ∧ decodeLine [0x53#8, 0x4E#8] = .msgIgnore ∧
    decodeLine [0x53#8, 0x20#8, 0x4E#8] = .msgIgnore ∧ decodeLine [0x44#8, 0x3A#8] = .msgIgnore ∧
    decodeLine [0x44#8, 0x3A#8, 0x2D#8] = .msgIgnore ∧ decodeLine [0x44#8, 0x3A#8, 0x2B#8] = .msgIgnore ∧
    decodeLine [0x44#8, 0x3A#8, 0x20#8, 0x34#8, 0x35#8] = .msgIgnore ∧
    decodeLine [0x44#8, 0x3A#8, 0x34#8, 0x20#8, 0x35#8] = .msgIgnore ∧
    decodeLine [0x44#8, 0x3A#8, 0x34#8, 0x2E#8, 0x35#8] = .msgIgnore := by decide

/-- V51 to V64. -/
theorem test_decode_ignored_more :
    decodeLine [0x44#8, 0x3A#8, 0x30#8, 0x78#8, 0x31#8, 0x30#8] = .msgIgnore ∧
    decodeLine [0x44#8, 0x3A#8, 0x2D#8, 0x2D#8, 0x34#8] = .msgIgnore ∧
    decodeLine [0x44#8, 0x3A#8, 0x2B#8, 0x2D#8, 0x34#8] = .msgIgnore ∧
    decodeLine [0x44#8, 0x3A#8, 0x34#8, 0x35#8, 0x61#8, 0x62#8, 0x63#8] = .msgIgnore ∧
    decodeLine [0x64#8, 0x3A#8, 0x34#8, 0x35#8] = .msgIgnore ∧
    decodeLine [0x44#8, 0x3B#8, 0x34#8, 0x35#8] = .msgIgnore ∧
    decodeLine [0x44#8, 0x34#8, 0x35#8] = .msgIgnore ∧
    decodeLine [0x58#8, 0x3A#8, 0x61#8, 0x62#8, 0x63#8] = .msgIgnore ∧ decodeLine [] = .msgIgnore ∧
    decodeLine [0x20#8, 0x20#8, 0x20#8] = .msgIgnore ∧ decodeLine [0x44#8, 0x3A#8, 0x0A#8] = .msgIgnore ∧
    decodeLine [0x44#8, 0x3A#8, 0x31#8, 0x00#8] = .msgIgnore ∧ decodeLine [0xA0#8, 0x53#8] = .msgIgnore := by
  decide

/-- S12, and R86. -/
theorem test_decode_mode_phase :
    reads (decodeSelector (.mode 1501)) (.selAuto 1501) ∧ reads (decodeSelector (.mode 1500)) (.selManual 1500) ∧
    reads (decodeSelector (.mode 4000000000)) (.selAuto 4000000000) ∧
    reads (decodeSelector (.phase .manual true 1700 1600)) (.manual 1700 1600) ∧
    reads (decodeSelector (.phase .autonomous true 1 2)) .autoConsume ∧
    reads (decodeSelector (.phase .autonomous false 1 2)) .autoHold := by decide

/-- V90, V91, V94, V95, V97, V98, V101, V102, V105, V106: the boundaries of R87 at and below 0. -/
theorem test_decode_dev_negative :
    reads (decodeSelector (.dev .stop)) .mapStop ∧
    reads (decodeSelector (.dev (.dev (-1000000000000000000000000000000))))
      (.mapFullrevNeg (-1000000000000000000000000000000)) ∧
    reads (decodeSelector (.dev (.dev (-100)))) (.mapFullrevNeg (-100)) ∧
    reads (decodeSelector (.dev (.dev (-99)))) (.mapRevNeg (-99)) ∧
    reads (decodeSelector (.dev (.dev (-80)))) (.mapRevNeg (-80)) ∧
    reads (decodeSelector (.dev (.dev (-79)))) (.mapLockNeg (-79)) ∧
    reads (decodeSelector (.dev (.dev (-40)))) (.mapLockNeg (-40)) ∧
    reads (decodeSelector (.dev (.dev (-39)))) (.mapPropNeg (-39)) ∧
    reads (decodeSelector (.dev (.dev (-1)))) (.mapPropNeg (-1)) ∧
    reads (decodeSelector (.dev (.dev 0))) .mapZero := by decide

/-- V107, V110, V111, V114, V115, V117, V118, V121. -/
theorem test_decode_dev_positive :
    reads (decodeSelector (.dev (.dev 1))) (.mapPropPos 1) ∧
    reads (decodeSelector (.dev (.dev 39))) (.mapPropPos 39) ∧
    reads (decodeSelector (.dev (.dev 40))) (.mapLockPos 40) ∧
    reads (decodeSelector (.dev (.dev 79))) (.mapLockPos 79) ∧
    reads (decodeSelector (.dev (.dev 80))) (.mapRevPos 80) ∧
    reads (decodeSelector (.dev (.dev 99))) (.mapRevPos 99) ∧
    reads (decodeSelector (.dev (.dev 100))) (.mapFullrevPos 100) ∧
    reads (decodeSelector (.dev (.dev 1000000000000000000000000000000)))
      (.mapFullrevPos 1000000000000000000000000000000) := by decide

/-- V130 to V140. -/
theorem test_decode_class :
    reads (decodeSelector (.ind ⟨1500, 1499⟩ 9)) .clsReversing ∧
    reads (decodeSelector (.ind ⟨1000, 1499⟩ 9)) .clsReversing ∧
    reads (decodeSelector (.ind ⟨2000, 1430⟩ 9)) .clsReversing ∧
    reads (decodeSelector (.ind ⟨1500, 1500⟩ 9)) .clsNeutral ∧
    reads (decodeSelector (.ind ⟨1449, 1500⟩ 9)) (.clsTurnLeft 9) ∧
    reads (decodeSelector (.ind ⟨1450, 1500⟩ 9)) .clsNeutral ∧
    reads (decodeSelector (.ind ⟨1550, 1560⟩ 9)) .clsNeutral ∧
    reads (decodeSelector (.ind ⟨1551, 1560⟩ 9)) (.clsTurnRight 9) ∧
    reads (decodeSelector (.ind ⟨1000, 1550⟩ 9)) (.clsTurnLeft 9) ∧
    reads (decodeSelector (.ind ⟨2000, 1550⟩ 9)) (.clsTurnRight 9) ∧
    reads (decodeSelector (.ind ⟨1500, 1435⟩ 9)) .clsReversing := by decide

/-- The timer of V142, V143 and V150. -/
theorem test_decode_blink :
    readsNothing (decodeSelector (.blink ⟨1400, 1500⟩ ⟨true, false⟩ ⟨1000000, 0⟩ 1199999)) ∧
    reads (decodeSelector (.blink ⟨1400, 1500⟩ ⟨true, false⟩ ⟨1000000, 0⟩ 1200000))
      (.blinkToggle .left 1200000) ∧
    reads (decodeSelector (.blink ⟨1600, 1500⟩ ⟨false, true⟩ ⟨0, 4294967000⟩ 199704))
      (.blinkToggle .right 199704) ∧
    readsNothing (decodeSelector (.blink ⟨1600, 1500⟩ ⟨false, false⟩ ⟨0, 4294967000⟩ 199704)) := by decide

/-- The words of spec/opcode_table.json. -/
theorem test_table_words :
    decodeTableWord 8 0x01 = some (.rise .steer) ∧ decodeTableWord 8 0x02 = some (.fall .steer) ∧
    decodeTableWord 8 0x00 = some (.noedgeLow .steer) ∧ decodeTableWord 8 0x03 = some (.noedgeHigh .steer) ∧
    decodeTableWord 8 0x12 = some (.fall .aux2) ∧ decodeTableWord 8 0x15 = none ∧
    decodeTableWord 8 0x53 = some .msgS ∧ decodeTableWord 8 0x4E = some .msgN ∧
    decodeTableWord 16 0x443A = some (.msgD 0) ∧ decodeTableWord 0 0 = none := by decide

/-- The table's word runs as the very next step. -/
theorem test_withFetchWord_pin :
    taken (step (State.reset.withFetchWord 8 0x01)) (fun t => t.pin.steer && decide (t.inputs = [])) = true ∧
    taken (step (State.reset.withFetchWord 8 0x02)) (fun t => !t.pin.steer && decide (t.width.steer = 0)) = true ∧
    taken (step (State.reset.withFetchWord 8 0x03)) (fun t => t.pin.steer) = true := by decide

theorem test_withFetchWord_line :
    taken (step (State.reset.withFetchWord 8 0x53)) (fun t => decide (t.mbx = some .stop)) = true ∧
    taken (step ((auto (some .stop)).withFetchWord 16 0x443A)) (fun t => decide (t.mbx = some (.dev 0))) = true := by
  decide

/-- U6, R250: a line waits while a message is held, and the cycle behind it goes on. -/
theorem test_step_line_waits :
    taken (step { auto (some (.dev 45)) with inputs := [.line [0x53#8], .cycleGo] })
      (fun t => issues 1000 1550 [⟨1000, 1550⟩] t && t.mbx.isNone && decide (t.inputs = [.line [0x53#8]])) = true := by
  decide

/-- R11, R62: a fall on a low pin and an index of 5 cannot happen; the tick behind them does. -/
theorem test_step_skips_the_impossible :
    taken (step { State.reset with inputs := [.pin 0b00010#5, .rdw 5, .pin 0b10100#5, .tick] })
      (fun t => decide (t.time = 1) && !t.pin.steer && decide (t.inputs.length = 3)) = true := by decide

/-- R25, R7: the channels are `N_CH` many and have the indices of the table. -/
theorem test_channel_indices :
    Channel.all.length = Config.nCh ∧ Channel.all.map (fun c => c.index.toNat) = [0, 1, 2, 3, 4] ∧
    Channel.ofIndex 5 = none ∧ Channel.ofIndex 7 = none := by decide

/-! ### The encoder, against codes written out from the spec -/

theorem test_encode_pin :
    encode (.rise .mode) = .event (.pin 0b01001#5) ∧ encode (.fall .throttle) = .event (.pin 0b00110#5) ∧
    encode (.noedgeLow .aux2) = .event (.pin 0b10000#5) ∧
    encode (.noedgeHigh .aux1) = .event (.pin 0b01111#5) := by decide

theorem test_encode_line :
    encode .msgS = .event (.line [0x53#8]) ∧ encode .msgN = .event (.line [0x4E#8]) ∧
    encode (.msgD (-100)) = .event (.line [0x44#8, 0x3A#8, 0x2D#8, 0x31#8, 0x30#8, 0x30#8]) ∧
    encode (.msgD 0) = .event (.line [0x44#8, 0x3A#8, 0x30#8]) := by decide

/-! ### Channel Decoder -/

/-- V2. -/
theorem test_tick_wraps :
    taken (exec .tick { State.reset with time := 4294967295 }) (fun t => decide (t.time = 0)) = true := by decide

/-- V3. -/
theorem test_rise_stamps :
    taken (exec (.rise .steer) { State.reset with time := 5000 })
      (fun t => t.pin.steer && decide (t.start.steer = 5000) && decide (t.width.steer = 1500)) = true := by decide

/-- V11. -/
theorem test_rise_needs_low :
    notTaken (exec (.rise .steer) { State.reset with pin := ⟨true, false, false, false, false⟩ }) = true := by decide

/-- V6, its last step. -/
theorem test_fall_across_wrap :
    taken (exec (.fall .steer) { State.reset with
        time := 1204, pin := ⟨true, false, false, false, false⟩, start := ⟨4294967000, 0, 0, 0, 0⟩ })
      (fun t => !t.pin.steer && decide (t.width.steer = 1500) && decide (t.start.steer = 4294967000)) = true := by
  decide

/-- V10. -/
theorem test_fall_needs_high : notTaken (exec (.fall .steer) State.reset) = true := by decide

/-- R113. -/
theorem test_noedge_low : taken (exec (.noedgeLow .aux1) State.reset) (fun t => decide (t = State.reset)) = true := by
  decide

theorem test_noedge_high :
    taken (exec (.noedgeHigh .aux1) State.reset) (fun t => decide (t = State.reset)) = true := by decide

/-- V9. -/
theorem test_rdw :
    taken (exec (.rdw .aux2) { State.reset with width := ⟨1500, 1500, 1500, 1500, 1900⟩ })
      (fun t => decide (t.results = [.width .aux2 1900])) = true := by decide

/-! ### Inbound messages -/

theorem test_msg_accepted :
    taken (exec .msgS State.reset) (fun t => decide (t.mbx = some .stop)) = true ∧
    taken (exec .msgN State.reset) (fun t => decide (t.mbx = some .stop)) = true ∧
    taken (exec (.msgD (-45)) State.reset) (fun t => decide (t.mbx = some (.dev (-45)))) = true ∧
    taken (exec .msgIgnore State.reset) (fun t => decide (t = State.reset)) = true := by decide

/-- V65. -/
theorem test_msg_needs_empty_mailbox :
    notTaken (exec .msgS (auto (some .stop))) = true ∧ notTaken (exec .msgN (auto (some .stop))) = true ∧
    notTaken (exec (.msgD 1) (auto (some .stop))) = true ∧
    notTaken (exec .msgIgnore (auto (some .stop))) = true := by decide

/-! ### Arbitration -/

theorem test_sel :
    taken (exec (.selAuto 1501) State.reset) (fun t => decide (t.results = [.mode .autonomous])) = true ∧
    taken (exec (.selManual 1500) State.reset) (fun t => decide (t.results = [.mode .manual])) = true ∧
    notTaken (exec (.selAuto 1500) State.reset) = true ∧
    notTaken (exec (.selManual 1501) State.reset) = true := by decide

/-- V77. -/
theorem test_manual_clamp_unsigned :
    taken (exec (.manual 4000000000 4294967295) State.reset) (issues 2000 1560 [⟨2000, 1560⟩]) = true := by
  decide +kernel

/-- V73. -/
theorem test_manual_clamp_low :
    taken (exec (.manual 999 1439) State.reset) (issues 1000 1440 [⟨1000, 1440⟩]) = true := by decide +kernel

/-- V79 and V81. -/
theorem test_autoConsume :
    taken (exec .autoConsume (auto (some (.dev 45))))
      (fun t => issues 1000 1550 [⟨1000, 1550⟩] t && t.mbx.isNone) = true ∧
    taken (exec .autoConsume { auto (some (.dev 0)) with cmd := ⟨1000, 1550⟩ })
      (fun t => issues 1000 1550 [] t && t.mbx.isNone) = true := by decide

/-- V71. -/
theorem test_autoHold :
    taken (exec .autoHold { auto none with cmd := ⟨1234, 1500⟩ }) (issues 1234 1500 []) = true ∧
    notTaken (exec .autoHold (auto (some .stop))) = true := by decide

/-- V70 and V78. -/
theorem test_cycle_manual :
    taken (exec .cycle (widths 1500 1700 1600))
      (fun t => issues 1700 1560 [⟨1700, 1560⟩] t && showsLamps false true 0 0 false false t) = true ∧
    taken (exec .cycle { widths 1200 1500 1500 with mbx := some (.dev 45) })
      (fun t => issues 1500 1500 [⟨1500, 1500⟩] t && decide (t.mbx = some (.dev 45))) = true := by
  decide +kernel

/-- V80 with the indicators of R192. -/
theorem test_cycle_autonomous :
    taken (exec .cycle { auto (some .stop) with cmd := ⟨1000, 1550⟩ })
      (fun t => issues 1500 1435 [⟨1500, 1435⟩] t && t.mbx.isNone && showsLamps false false 0 0 true true t) = true := by
  decide

/-! ### Deviation Mapper -/

/-- V90, V106. -/
theorem test_map_stop_zero :
    taken (exec .mapStop State.reset) (fun t => decide (t.results = [.command (some ⟨1500, 1435⟩)])) = true ∧
    taken (exec .mapZero State.reset) (fun t => decide (t.results = [.command none])) = true := by decide

/-- V103 to V105 and V107 to V109. -/
theorem test_map_prop :
    mapMessage (.dev (-3)) = some ⟨1600, 1560⟩ ∧ mapMessage (.dev (-2)) = some ⟨1580, 1560⟩ ∧
    mapMessage (.dev (-1)) = some ⟨1540, 1560⟩ ∧ mapMessage (.dev 1) = some ⟨1460, 1560⟩ ∧
    mapMessage (.dev 2) = some ⟨1420, 1560⟩ ∧ mapMessage (.dev 3) = some ⟨1400, 1560⟩ := by decide

/-- V110, V102. -/
theorem test_map_prop_rows :
    taken (exec (.mapPropPos 39) State.reset) (fun t => decide (t.results = [.command (some ⟨1400, 1560⟩)])) = true ∧
    taken (exec (.mapPropNeg (-39)) State.reset)
      (fun t => decide (t.results = [.command (some ⟨1600, 1560⟩)])) = true := by decide

/-- V114, V101. -/
theorem test_map_lock_rows :
    taken (exec (.mapLockPos 79) State.reset) (fun t => decide (t.results = [.command (some ⟨1000, 1550⟩)])) = true ∧
    taken (exec (.mapLockNeg (-40)) State.reset)
      (fun t => decide (t.results = [.command (some ⟨2000, 1550⟩)])) = true := by decide

/-- V115, V95. -/
theorem test_map_rev_rows :
    taken (exec (.mapRevPos 80) State.reset) (fun t => decide (t.results = [.command (some ⟨1800, 1440⟩)])) = true ∧
    taken (exec (.mapRevNeg (-99)) State.reset)
      (fun t => decide (t.results = [.command (some ⟨1200, 1440⟩)])) = true := by decide

/-- V118, V94. -/
theorem test_map_fullrev_rows :
    taken (exec (.mapFullrevPos 100) State.reset)
      (fun t => decide (t.results = [.command (some ⟨1800, 1430⟩)])) = true ∧
    taken (exec (.mapFullrevNeg (-100)) State.reset)
      (fun t => decide (t.results = [.command (some ⟨1200, 1430⟩)])) = true := by decide

/-- A row is not taken on a neighbour's deviation. -/
theorem test_map_rows_exclude :
    notTaken (exec (.mapPropPos 40) State.reset) = true ∧ notTaken (exec (.mapLockPos 80) State.reset) = true ∧
    notTaken (exec (.mapRevNeg (-100)) State.reset) = true := by decide

/-! ### Indicators -/

/-- V141, V143. -/
theorem test_turn_left :
    taken (exec (.clsTurnLeft 1000000) (lamps 1400 1500 false false 0 0 false false))
      (showsLamps true false 1000000 0 false false) = true ∧
    taken (exec (.clsTurnLeft 1200000) (lamps 1400 1500 true false 1000000 0 false false))
      (showsLamps true false 1200000 0 true false) = true := by decide

/-- V142, V145. -/
theorem test_turn_left_waits_and_enters :
    taken (exec (.clsTurnLeft 1199999) (lamps 1400 1500 true false 1000000 0 false false))
      (showsLamps true false 1000000 0 false false) = true ∧
    taken (exec (.clsTurnLeft 500) (lamps 1400 1500 false false 0 0 true true))
      (showsLamps true false 500 0 true false) = true := by decide

/-- V147, V150. -/
theorem test_turn_right :
    taken (exec (.clsTurnRight 600) (lamps 1600 1500 true false 500 0 true false))
      (showsLamps false true 500 600 false false) = true ∧
    taken (exec (.clsTurnRight 199704) (lamps 1600 1500 false true 0 4294967000 false false))
      (showsLamps false true 0 199704 false true) = true := by decide

/-- V151. -/
theorem test_turn_right_waits :
    taken (exec (.clsTurnRight 199703) (lamps 1600 1500 false true 0 4294967000 false false))
      (showsLamps false true 0 4294967000 false false) = true := by decide

/-- V148. -/
theorem test_reversing :
    taken (exec .clsReversing (lamps 1500 1435 false true 500 600 false true))
      (showsLamps false false 500 600 true true) = true := by decide

/-- V149. -/
theorem test_neutral :
    taken (exec .clsNeutral (lamps 1500 1500 false true 500 600 false true))
      (showsLamps false false 500 600 false false) = true := by decide

/-- V146, and the toggle of V150 alone. -/
theorem test_blink_toggle :
    taken (exec (.blinkToggle .left 200500) (lamps 1400 1500 true false 500 0 true false))
      (showsLamps true false 200500 0 false false) = true ∧
    taken (exec (.blinkToggle .right 199704) (lamps 1600 1500 false true 0 4294967000 false false))
      (showsLamps false true 0 199704 false true) = true := by decide

/-- R196: not before the interval is over. -/
theorem test_blink_toggle_waits :
    notTaken (exec (.blinkToggle .left 1199999) (lamps 1400 1500 true false 1000000 0 false false)) = true := by
  decide

/-! ### Reset, ports, stimulus -/

/-- V7's reset, from a state with every kind of register changed. -/
theorem test_reset :
    taken (exec (.reset ⟨false, false, true, false, false⟩)
        { lamps 1400 1560 true true 7 8 true true with time := 99, mbx := some .stop, trace := [⟨1400, 1560⟩] })
      (fun t => decide (t = { State.resetWith ⟨false, false, true, false, false⟩ with trace := [⟨1400, 1560⟩] })) =
      true := by decide

/-- R41. -/
theorem test_ports :
    (lamps 1400 1560 true false 7 8 true false).actSteer = 1400 ∧
    (lamps 1400 1560 true false 7 8 true false).actSpeed = 1560 ∧
    (lamps 1400 1560 true false 7 8 true false).ledL = true ∧
    (lamps 1400 1560 true false 7 8 true false).ledR = false ∧ State.reset.lineReady = true ∧
    (auto (some .stop)).lineReady = false ∧ (widths 1800 1100 1450).rdwData 1 = 1450 := by decide

/-- R93: `pulse STEER, 2`, `msg -2`, `cycles 2 every 1`. -/
theorem test_stimulus :
    pulse .steer 2 = [.pin 0b00001#5, .tick, .tick, .pin 0b00010#5] ∧
    msg (-2) = [.line [0x44#8, 0x3A#8, 0x2D#8, 0x32#8]] ∧
    cyclesEvery 2 1 = [.tick, .cycleGo, .tick, .cycleGo] ∧
    ticksUntil 3 { State.reset with time := 1 } = [.tick, .tick] := by decide

/-! ### Witnesses: the hypotheses of each statement met by concrete values -/

/-- First clause: a line that waits, then a cycle; second clause: nothing lined up, and only a line that waits. -/
theorem test_witness_StepRunsDecodedEvent :
    (({ auto (some .stop) with inputs := [.line [0x53#8], .cycleGo, .tick] } : State).inputs =
      [.line [0x53#8]] ++ .cycleGo :: [.tick] ∧
      (auto (some .stop)).canHappen (.line [0x53#8]) = false ∧ (auto (some .stop)).canHappen .cycleGo = true ∧
      reads (decodeInput .cycleGo) .cycle = true) ∧
    (∀ x ∈ State.reset.inputs, State.reset.canHappen x = false) ∧
    (∀ x ∈ ({ auto (some .stop) with inputs := [.line [0x53#8]] } : State).inputs,
      (auto (some .stop)).canHappen x = false) := by decide

theorem test_witness_EventsHappenOnlyWhenEnabled :
    5 ≤ (0b10100#5).toNat / 4 ∧ 5 ≤ (0b11111#5).toNat / 4 ∧ 5 ≤ (5#3).toNat ∧ 5 ≤ (7#3).toNat ∧
    State.reset.canHappen (.pin 0b10001#5) = true ∧ State.reset.canHappen (.pin 0b10010#5) = false ∧
    State.reset.canHappen (.line []) = true := by decide

theorem test_witness_PinCodesDecode :
    (0b00000#5).toNat / 4 = Channel.steer.index.toNat ∧ (0b00111#5).toNat / 4 = Channel.throttle.index.toNat ∧
    (0b10011#5).toNat / 4 = Channel.aux2.index.toNat ∧ 5 ≤ (0b10100#5).toNat / 4 ∧
    5 ≤ (0b11111#5).toNat / 4 := by decide

theorem test_witness_TrimRemovesBothEnds :
    (trim [0x20#8, 0x53#8, 0x4E#8, 0x0A#8]).head? = some 0x53#8 ∧
    (trim [0x20#8, 0x53#8, 0x4E#8, 0x0A#8]).getLast? = some 0x4E#8 := by decide

theorem test_witness_LinesDecodeByFirstRow :
    trim [0x53#8, 0x0A#8] = [0x53#8] ∧ trim [0x4E#8, 0x0D#8] = [0x4E#8] ∧
    (trim [0x44#8, 0x3A#8, 0x37#8, 0x20#8] = 0x44#8 :: 0x3A#8 :: [0x37#8] ∧ decodeInteger [0x37#8] = some 7) ∧
    (trim [0x58#8] ≠ [0x53#8] ∧ trim [0x58#8] ≠ [0x4E#8]) := by decide

/-- The last clause's third hypothesis: `X` has no first byte `D`. -/
theorem test_witness_LinesDecodeByFirstRow_ignored :
    ∀ v d, trim [0x58#8] = 0x44#8 :: 0x3A#8 :: v → decodeInteger v ≠ some d := by
  intro v d h
  exact absurd (congrArg List.length h) (by simp [trim, isSpace])

theorem test_witness_DecodeEncode :
    WellFormed (.selAuto 1501) ∧ WellFormed (.mapPropPos 39) ∧ WellFormed (.mapFullrevNeg (-100)) ∧
    WellFormed (.msgD (-7)) ∧ WellFormed (.blinkToggle .right 5) := by decide

theorem test_witness_DecodedIsWellFormed : decode (.selected (.dev (.dev 79))) = .ok (.mapLockPos 79) := rfl

theorem test_witness_ClassSelection :
    (1499#16).toNat < 1500 ∧ (1500 ≤ (1500#16).toNat ∧ (1449#16).toNat < 1450) ∧
    (1500 ≤ (1500#16).toNat ∧ 1550 < (1551#16).toNat) ∧
    (1500 ≤ (1500#16).toNat ∧ 1450 ≤ (1450#16).toNat ∧ (1450#16).toNat ≤ 1550) ∧
    (1450 ≤ (1550#16).toNat ∧ (1550#16).toNat ≤ 1550) := by decide

theorem test_witness_RiseStampsTheEdge : State.reset.pin.get .aux2 = false := by decide

theorem test_witness_FallPublishesTheWidth :
    (State.resetWith ⟨false, false, true, false, false⟩).pin.get .mode = true := by decide

theorem test_witness_PulseWidthIsTheTickCount :
    State.reset.pin.get .steer = false ∧
    (∀ i ∈ [Instr.tick, .rise .mode, .tick], touchesChannel .steer i = false) ∧
    [Instr.tick, .rise .mode, .tick].count .tick < 4294967296 ∧
    taken (runAll (.rise .steer :: [.tick, .rise .mode, .tick] ++ [.fall .steer]) State.reset)
      (fun t => decide (t.width.get .steer = 2)) = true := by decide

theorem test_witness_PulseNotationPublishes :
    ({ State.reset with inputs := pulse .steer 2 ++ [.cycleGo] } : State).pin.get .steer = false ∧
    2 < 4294967296 ∧
    ({ State.reset with inputs := pulse .steer 2 ++ [.cycleGo] } : State).inputs = pulse .steer 2 ++ [.cycleGo] := by
  decide

theorem test_witness_FirstFallAfterReset :
    (⟨false, false, true, false, false⟩ : PerChannel Bool).get .mode = true := by decide

theorem test_witness_WidthFreezesWithoutFall :
    (∀ i ∈ [Instr.tick, .rise .steer, .cycle], i ≠ .fall .steer) ∧
    taken (runAll [.tick, .rise .steer, .cycle] State.reset) (fun _ => true) = true := by decide

theorem test_witness_WidthFreezesWithoutFall_reset :
    ∀ i ∈ [Instr.tick, .rise .steer, .cycle], ∀ pins, i ≠ .reset pins := by simp

theorem test_witness_CaptureStepsCommute :
    Channel.steer ≠ .mode ∧
    taken (runAll [.rise .steer, .fall .mode] (State.resetWith ⟨false, false, true, false, false⟩))
      (fun _ => true) = true := by decide

theorem test_witness_mailbox_empty : State.reset.mbx = none := by decide

theorem test_witness_LineStepParsesOrWaits :
    ({ State.reset with inputs := [.line [0x53#8]] } : State).mbx = none ∧ decodeLine [0x53#8] = .msgS ∧
    decodeLine [0x4E#8] = .msgN ∧ decodeLine [0x44#8, 0x3A#8, 0x30#8] = .msgD 0 ∧ decodeLine [] = .msgIgnore ∧
    ({ auto (some .stop) with inputs := [.line [0x53#8]] } : State).inputs = .line [0x53#8] :: [] ∧
    ({ auto (some .stop) with inputs := [.line [0x53#8]] } : State).mbx ≠ none := by decide

theorem test_witness_HeldMessageLeavesOnlyByConsumption :
    (auto (some (.dev 45))).mbx = some (.dev 45) ∧
    taken (exec .cycle (auto (some (.dev 45)))) (fun t => t.mbx.isNone) = true ∧
    taken (exec .tick (auto (some (.dev 45)))) (fun t => decide (t.mbx = some (.dev 45))) = true := by decide

theorem test_witness_SelectionCompletes : 1500 < (1501#32).toNat ∧ (1500#32).toNat ≤ 1500 := by decide

theorem test_witness_manual_mode : ((widths 1500 1700 1600).width.get .mode).toNat ≤ 1500 := by decide

theorem test_witness_autonomous_mode :
    1500 < ((widths 1501 1700 1600).width.get .mode).toNat ∧ (widths 1501 1700 1600).mbx = none ∧
    1500 < ((auto (some (.dev 45))).width.get .mode).toNat ∧ (auto (some (.dev 45))).mbx = some (.dev 45) := by
  decide

/-- The clauses of ConsumeIssuesWhatTheMapGives and AutonomousCycleCommand. -/
theorem test_witness_map_results :
    (auto (some (.dev 45))).mbx.bind mapMessage = some ⟨1000, 1550⟩ ∧
    (auto (some (.dev 0))).mbx.bind mapMessage = none ∧ (auto none).mbx.bind mapMessage = none ∧
    mapMessage (.dev 45) = some ⟨1000, 1550⟩ ∧ mapMessage (.dev 0) = none := by decide

theorem test_witness_ManualPathIsIdempotent :
    ((widths 1500 1700 1600).width.get .mode).toNat ≤ 1500 ∧
    taken (exec .cycle (widths 1500 1700 1600))
      (fun t => taken (runAll (List.replicate 3 .tick ++ [.cycle]) t) (fun _ => true)) = true := by decide

/-- AutonomousIgnoresTheSticks and ManualIgnoresTheMailbox: the cycle answers. -/
theorem test_witness_noninterference :
    1500 < ((auto (some .stop)).width.get .mode).toNat ∧
    taken (exec .cycle (auto (some .stop))) (fun _ => true) = true ∧
    ((widths 1500 1700 1600).width.get .mode).toNat ≤ 1500 ∧
    taken (exec .cycle (widths 1500 1700 1600)) (fun _ => true) = true := by decide

/-- The rows of MapTable, MapForwardRowsComplete and MapReverseRowsComplete, at both bounds of each range. -/
theorem test_witness_map_rows :
    mapMessage (.dev 39) = some ⟨1400, 1560⟩ ∧ mapMessage (.dev (-39)) = some ⟨1600, 1560⟩ ∧
    mapMessage (.dev 40) = some ⟨1000, 1550⟩ ∧ mapMessage (.dev 79) = some ⟨1000, 1550⟩ ∧
    mapMessage (.dev (-40)) = some ⟨2000, 1550⟩ ∧ mapMessage (.dev (-79)) = some ⟨2000, 1550⟩ ∧
    mapMessage (.dev 80) = some ⟨1800, 1440⟩ ∧ mapMessage (.dev 99) = some ⟨1800, 1440⟩ ∧
    mapMessage (.dev (-80)) = some ⟨1200, 1440⟩ ∧ mapMessage (.dev (-99)) = some ⟨1200, 1440⟩ ∧
    mapMessage (.dev 100) = some ⟨1800, 1430⟩ ∧ mapMessage (.dev (-100)) = some ⟨1200, 1430⟩ ∧
    mapMessage (.dev 0) = none := by decide

theorem test_witness_MapIsMirrored :
    mapMessage (.dev 2) = some ⟨1420, 1560⟩ ∧ mapMessage (.dev (-2)) = some ⟨1580, 1560⟩ := by decide

theorem test_witness_ReversingIsSolid : (commanded 1800 1499).cmd.speed.toNat < 1500 := by decide

theorem test_witness_NeutralIsDark :
    (1500 ≤ (commanded 1450 1500).cmd.speed.toNat ∧ 1450 ≤ (commanded 1450 1500).cmd.steer.toNat ∧
      (commanded 1450 1500).cmd.steer.toNat ≤ 1550) ∧
    (1450 ≤ (commanded 1550 1500).cmd.steer.toNat ∧ (commanded 1550 1500).cmd.steer.toNat ≤ 1550) := by decide

/-- The clauses of TurnLeftBlinks and BlinkToggleCompletes: entry, due at 200000, not due at 199999. -/
theorem test_witness_turn_left :
    1500 ≤ (lamps 1449 1500 true false 1000000 0 true false).cmd.speed.toNat ∧
    (lamps 1449 1500 true false 1000000 0 true false).cmd.steer.toNat < 1450 ∧
    (lamps 1449 1500 false false 0 0 true false).blink.left = false ∧
    (lamps 1449 1500 true false 1000000 0 true false).blink.left = true ∧
    200000 ≤ (4294967296 + (1200000#32).toNat - (1000000#32).toNat) % 4294967296 ∧
    (4294967296 + (1199999#32).toNat - (1000000#32).toNat) % 4294967296 < 200000 := by decide

/-- The clauses of TurnRightBlinks and BlinkToggleCompletes, across the wrap of `TIME`. -/
theorem test_witness_turn_right :
    1500 ≤ (lamps 1551 1500 false true 0 4294967000 false true).cmd.speed.toNat ∧
    1550 < (lamps 1551 1500 false true 0 4294967000 false true).cmd.steer.toNat ∧
    (lamps 1551 1500 false false 0 0 false true).blink.right = false ∧
    (lamps 1551 1500 false true 0 4294967000 false true).blink.right = true ∧
    200000 ≤ (4294967296 + (199704#32).toNat - (4294967000#32).toNat) % 4294967296 ∧
    (4294967296 + (199703#32).toNat - (4294967000#32).toNat) % 4294967296 < 200000 := by decide

/-- Manual cycles at 1400: one with a toggle, one without. -/
theorem test_witness_SustainedTurnTogglesAtTheInterval :
    taken (exec .cycle { widths 1500 1400 1500 with time := 203000, blink := ⟨true, false⟩, tgl := ⟨3000, 0⟩ })
      (fun t => t.blink.get .left && t.out.get .left) = true ∧
    taken (exec .cycle { widths 1500 1400 1500 with time := 202999, blink := ⟨true, false⟩, tgl := ⟨3000, 0⟩ })
      (fun t => t.blink.get .left && !t.out.get .left) = true := by decide

theorem test_witness_ResetWins :
    taken (exec .cycle State.reset)
      (fun t => taken (exec (.reset ⟨true, false, false, false, false⟩) t) (fun _ => true)) = true ∧
    taken (exec (.reset ⟨true, false, false, false, false⟩) State.reset) (fun _ => true) = true := by decide

theorem test_witness_EnabledOperationsComplete :
    Enabled (.rise .steer) State.reset ∧ Enabled .msgS State.reset ∧ Enabled (.mapPropPos 39) State.reset ∧
    Enabled .autoConsume (auto (some .stop)) ∧
    Enabled (.blinkToggle .left 1200000) (lamps 1449 1500 true false 1000000 0 true false) := by
  simp only [Enabled]; decide

theorem test_witness_NotEnabledIsNotTaken :
    ¬ Enabled (.fall .steer) State.reset ∧ ¬ Enabled .msgS (auto (some .stop)) ∧
    ¬ Enabled (.mapPropPos 40) State.reset := by simp only [Enabled]; decide

/-- SingleWriters and TraceGrowsByTheHeldCommand: operations that write, each by its agent. -/
theorem test_witness_SingleWriters :
    taken (exec .tick State.reset) (fun t => decide (t.time ≠ State.reset.time)) = true ∧
    taken (exec (.rise .mode) State.reset) (fun t => decide (t.pin.get .mode ≠ State.reset.pin.get .mode)) = true ∧
    taken (exec .msgS State.reset) (fun t => decide (State.reset.mbx = none ∧ t.mbx ≠ none)) = true ∧
    taken (exec .cycle (auto (some (.dev 45))))
      (fun t => t.mbx.isNone && decide (t.cmd ≠ (auto (some (.dev 45))).cmd)) = true := by decide

/-- The two invariants' premises in a state no reset gives, whose next step is a cycle. -/
theorem test_witness_StepKeepsInvariants :
    CommandsBounded { auto (some (.dev 45)) with inputs := [.cycleGo] } ∧
    IndicatorTable { auto (some (.dev 45)) with inputs := [.cycleGo] } ∧
    taken (step { auto (some (.dev 45)) with inputs := [.cycleGo] })
      (fun t => issues 1000 1550 [⟨1000, 1550⟩] t && showsLamps true false 0 0 false false t) = true := by
  refine ⟨⟨by simp [Bounded, auto, widths, State.reset, State.resetWith], by simp [auto, widths, State.reset, State.resetWith]⟩,
    by simp [IndicatorTable, auto, widths, State.reset, State.resetWith], by decide⟩

end Sys2Proof.Tests
end

/-! ### The environment's events and the enabling conditions (00_scope.md section 5, R11) -/

namespace Sys2Proof.Machine

open Sys2Proof

/-! #### Which operations are taken -/

/-- The two answers a meaning can give: a next state, or the refusal of a step that is not enabled. -/
def TakenOrNotEnabled (a : Answer) : Prop :=
  (∃ t, a = .next t) ∨ ∃ op, a = .refused (.notEnabled op)

theorem takenOrNotEnabled_next (t : State) : TakenOrNotEnabled (.next t) := .inl ⟨t, rfl⟩

theorem takenOrNotEnabled_whenEnabled (b : Bool) (op : String) (t : State) :
    TakenOrNotEnabled (whenEnabled b op t) := by
  cases b with
  | true => exact .inl ⟨t, whenEnabled_true op t⟩
  | false => exact .inr ⟨op, whenEnabled_false op t⟩

/-- No meaning ends in a fault or in another refusal (R11, R210). -/
theorem takenOrNotEnabled_exec (i : Instr) (s : State) : TakenOrNotEnabled (exec i s) := by
  cases i with
  | tick | cycle | reset _ | rdw _ | noedgeLow _ | noedgeHigh _ | mapStop | mapZero =>
    exact takenOrNotEnabled_next _
  | rise _ | fall _ | msgS | msgN | msgD _ | msgIgnore | selAuto _ | selManual _ | manual _ _ | autoHold
  | mapPropPos _ | mapPropNeg _ | mapLockPos _ | mapLockNeg _ | mapRevPos _ | mapRevNeg _
  | mapFullrevPos _ | mapFullrevNeg _ | clsReversing | clsTurnLeft _ | clsTurnRight _
  | clsNeutral | blinkToggle _ _ => exact takenOrNotEnabled_whenEnabled _ _ _
  | autoConsume =>
    simp only [exec, execAutoConsume]
    cases s.mbx with
    | none => exact .inr ⟨_, rfl⟩
    | some _ => exact takenOrNotEnabled_whenEnabled _ _ _

/-- An operation has a next state exactly in the states that meet its enabling condition (R11). -/
theorem exec_taken_iff_enabled (i : Instr) (s : State) : (∃ t, exec i s = .next t) ↔ Enabled i s := by
  cases i with
  | tick => simp [exec_tick, Enabled]
  | cycle => simp [exec_cycle, Enabled]
  | reset _ => simp [exec_reset, Enabled]
  | rdw _ => simp [exec_rdw, Enabled]
  | rise _ => simp [exec_rise, Enabled]
  | fall _ => simp [exec_fall, Enabled]
  | noedgeLow _ => simp [exec_noedgeLow, Enabled]
  | noedgeHigh _ => simp [exec_noedgeHigh, Enabled]
  | msgS => simp [exec_msgS, Enabled]
  | msgN => simp [exec_msgN, Enabled]
  | msgD _ => simp [exec_msgD, Enabled]
  | msgIgnore => simp [exec_msgIgnore, Enabled]
  | selAuto _ => simp [exec_selAuto, Enabled, modeOf_eq_autonomous]
  | selManual _ => simp [exec_selManual, Enabled, modeOf_eq_manual]
  | manual _ _ => simp [exec_manual, Enabled, mode_eq_manual]
  | autoConsume =>
    simp [exec_autoConsume, Enabled, mode_eq_autonomous, Option.ne_none_iff_exists', and_comm]
  | autoHold => simp [exec_autoHold, Enabled, mode_eq_autonomous]
  | mapStop => simp [exec_mapStop, Enabled]
  | mapPropPos _ => simp [exec_mapPropPos, Enabled, bucketOf_dev_eq]
  | mapPropNeg _ => simp [exec_mapPropNeg, Enabled, bucketOf_dev_eq]
  | mapLockPos _ => simp [exec_mapLockPos, Enabled, bucketOf_dev_eq]
  | mapLockNeg _ => simp [exec_mapLockNeg, Enabled, bucketOf_dev_eq]
  | mapRevPos _ => simp [exec_mapRevPos, Enabled, bucketOf_dev_eq]
  | mapRevNeg _ => simp [exec_mapRevNeg, Enabled, bucketOf_dev_eq]
  | mapFullrevPos _ => simp [exec_mapFullrevPos, Enabled, bucketOf_dev_eq]
  | mapFullrevNeg _ => simp [exec_mapFullrevNeg, Enabled, bucketOf_dev_eq]
  | mapZero => simp [exec_mapZero, Enabled, bucketOf_dev_eq]
  | clsReversing => simp [exec_clsReversing, Enabled, classOf_eq_reversing]
  | clsTurnLeft _ => simp [exec_clsTurnLeft, Enabled, classOf_eq_left]
  | clsTurnRight _ => simp [exec_clsTurnRight, Enabled, classOf_eq_right]
  | clsNeutral => simp [exec_clsNeutral, Enabled, classOf_eq_neutral]
  | blinkToggle side _ =>
    cases side with
    | left => simp [exec_blinkToggle, Enabled, classOf_eq_left, toggleDue_iff]
    | right => simp [exec_blinkToggle, Enabled, classOf_eq_right, toggleDue_iff]

/-- Settles O52: `exec` answers a next state or `notEnabled`, and a next state only where it is enabled. -/
theorem notEnabledIsNotTaken : Obligations.NotEnabledIsNotTaken := by
  unfold Obligations.NotEnabledIsNotTaken
  intro i s hne
  have hnot : ¬ ∃ t, exec i s = .next t := mt (exec_taken_iff_enabled i s).1 hne
  exact (takenOrNotEnabled_exec i s).resolve_left hnot

/-! #### Which events can happen -/

/-- The channel bits of a pin code (R81). -/
theorem encodePin_channel (c : Channel) (p n : Bool) :
    (encodePin c p n).extractLsb' 2 3 = c.index := by
  cases c <;> cases p <;> cases n <;> rfl

/-- The previous-level bit of a pin code (R81). -/
theorem encodePin_previous (c : Channel) (p n : Bool) : (encodePin c p n).getLsbD 1 = p := by
  cases c <;> cases p <;> cases n <;> rfl

/-- A pin event of a channel can happen exactly when its `p` is that channel's level (R81). -/
theorem canHappen_encodePin (s : State) (c : Channel) (p n : Bool) :
    s.canHappen (.pin (encodePin c p n)) = true ↔ s.pin.get c = p := by
  simp only [canHappen_pin, encodePin_channel, encodePin_previous, channel_ofIndex_index,
    Option.some.injEq, exists_eq_left']

/-- The channel bits of a pin code as a number (R81). -/
theorem pinChannel_toNat (code : BitVec 5) : (code.extractLsb' 2 3).toNat = code.toNat / 4 := by
  have hlt := code.isLt
  rw [BitVec.extractLsb'_toNat, Nat.shiftRight_eq_div_pow]
  omega

/-- A pin event of index 5 to 7 never happens (R62, R81). -/
theorem canHappen_pin_noChannel (s : State) {code : BitVec 5} (h : 5 ≤ code.toNat / 4) :
    s.canHappen (.pin code) = false := by
  have hnone : Channel.ofIndex (code.extractLsb' 2 3) = none := by
    rwa [channel_ofIndex_eq_none, pinChannel_toNat]
  simp [← Bool.not_eq_true, canHappen_pin, hnone]

/-! #### An event that can happen decodes to an enabled operation -/

/-- A pin code whose channel exists and whose `p` is the pin's level is an enabled edge or no edge
(R81, R111 to R113). -/
theorem decodePin_enabled {s : State} {code : BitVec 5} {c : Channel}
    (hc : Channel.ofIndex (code.extractLsb' 2 3) = some c) (hp : s.pin.get c = code.getLsbD 1) :
    ∃ i, decodePin code = .ok i ∧ Enabled i s := by
  simp only [decodePin, hc]
  cases h1 : code.getLsbD 1 <;> cases code.getLsbD 0
  · exact ⟨_, rfl, trivial⟩
  · exact ⟨.rise c, rfl, hp.trans h1⟩
  · exact ⟨.fall c, rfl, hp.trans h1⟩
  · exact ⟨_, rfl, trivial⟩

/-- A trimmed line is one of the four operations of R83. -/
theorem decodeTrimmed_eq (b : List Byte) :
    decodeTrimmed b = .msgS ∨ decodeTrimmed b = .msgN ∨ (∃ d, decodeTrimmed b = .msgD d) ∨
      decodeTrimmed b = .msgIgnore := by
  unfold decodeTrimmed
  repeat' split
  all_goals simp

/-- Any line is enabled while no message is held (R130). -/
theorem decodeLine_enabled {s : State} (h : s.mbx = none) (b : List Byte) : Enabled (decodeLine b) s := by
  have hline : decodeLine b = decodeTrimmed (trim b) := rfl
  obtain hi | hi | ⟨_, hi⟩ | hi := decodeTrimmed_eq (trim b) <;> rw [hline, hi] <;> exact h

/-- An event that can happen decodes, and to an operation that is enabled (R11). -/
theorem canHappen_decodes_enabled {s : State} {e : Input} (h : s.canHappen e = true) :
    ∃ i, decodeInput e = .ok i ∧ Enabled i s := by
  cases e with
  | tick | cycleGo | rst _ => exact ⟨_, rfl, trivial⟩
  | rdw sel =>
    obtain ⟨c, hc⟩ := Option.isSome_iff_exists.1 h
    exact ⟨.rdw c, by simp [decodeInput, decodeRdw, hc], trivial⟩
  | pin code =>
    obtain ⟨c, hc, hp⟩ := canHappen_pin.1 h
    exact decodePin_enabled hc hp
  | line b => exact ⟨_, rfl, decodeLine_enabled (hasRoom_iff.1 h) b⟩

/-- Settles O59, clause by clause from what can happen and what it decodes to. -/
theorem eventsHappenOnlyWhenEnabled : Obligations.EventsHappenOnlyWhenEnabled := by
  unfold Obligations.EventsHappenOnlyWhenEnabled
  intro s
  refine ⟨canHappen_encodePin s, fun b => ?line, canHappen_tick s, canHappen_cycleGo s, canHappen_rst s,
    fun c => ?read, fun _ => canHappen_pin_noChannel s, fun sel hsel => ?noRead,
    fun _ => canHappen_decodes_enabled⟩
  case line => rw [canHappen_line, hasRoom_iff]
  case read => simp
  case noRead => simp [channel_ofIndex_eq_none.2 hsel]

/-! #### Which event a step takes -/

/-- The first event lined up that can happen is taken, and those before it go on waiting (R11, R250). -/
theorem fetch_after_waiting {s : State} {waiting rest : List Input} {e : Input}
    (hin : s.inputs = waiting ++ e :: rest) (hw : ∀ x ∈ waiting, s.canHappen x = false)
    (he : s.canHappen e = true) :
    s.nextInput = e ∧ s.afterFetch = { s with inputs := waiting ++ rest } := by
  have hfind : s.inputs.find? s.canHappen = some e := by
    rw [hin, List.find?_append, List.find?_eq_none.2 (by simpa using hw)]
    simp [he]
  have herase : s.inputs.eraseP s.canHappen = waiting ++ rest := by
    rw [hin, List.eraseP_append_right _ (by simpa using hw), List.eraseP_cons_of_pos he]
  simp [State.nextInput, State.afterFetch, hfind, herase]

/-- With nothing lined up that can happen, the free event is taken (R11, R42). -/
theorem fetch_free {s : State} (hw : ∀ x ∈ s.inputs, s.canHappen x = false) :
    s.nextInput = s.freeInput ∧ s.afterFetch = { s with eventNo := s.eventNo + 1 } := by
  have hfind : s.inputs.find? s.canHappen = none := List.find?_eq_none.2 (by simpa using hw)
  simp [State.nextInput, State.afterFetch, hfind]

/-- Settles O1: the first clause takes the event lined up, the second the free one, which decodes as every
event that can happen does. -/
theorem stepRunsDecodedEvent : Obligations.StepRunsDecodedEvent := by
  unfold Obligations.StepRunsDecodedEvent
  constructor
  · intro s waiting rest e i hin hw he hdec
    obtain ⟨hnext, hafter⟩ := fetch_after_waiting hin hw he
    rw [step_of_decode (hnext ▸ hdec), hafter]
  · intro s hw
    obtain ⟨hnext, hafter⟩ := fetch_free hw
    obtain ⟨i, hdec, -⟩ := canHappen_decodes_enabled (canHappen_nextInput s)
    refine ⟨i, by rwa [hnext] at hdec, ?_⟩
    rw [step_of_decode hdec, hafter]

end Sys2Proof.Machine

/-! ### What each agent writes, and the commands it can issue (10_state.md, R37 to R44) -/

namespace Sys2Proof.Machine

open Sys2Proof

/-! #### The bounds of the commands (R39) -/

/-- The reset command is bounded (R38). -/
theorem bounded_reset : Bounded ⟨1500, 1500⟩ := by unfold Bounded; decide

/-- The clamped pair of the manual path is bounded (R154). -/
theorem manual_bounded (st h : Word) (s : State) : Bounded (s.manual st h).cmd := by
  obtain ⟨hsteer, hspeed⟩ := manual_cmd st h s
  unfold Bounded
  omega

/-- The proportional rows' command is bounded (R172, R173). -/
theorem propSteer_bounded (d : Int) : Bounded ⟨propSteer d, 1560⟩ := by
  have hsteer := propSteer_toNat d
  have hspeed : (1560 : Target).toNat = 1560 := rfl
  simp only [Bounded, hspeed]
  omega

/-- Every command the map gives is bounded (R184). -/
theorem mapMessage_bounded {m : Message} {c : MotionCommand} (h : mapMessage m = some c) : Bounded c := by
  cases m with
  | stop =>
    cases h
    unfold Bounded; decide
  | dev d =>
    unfold mapMessage at h
    cases hrow : bucketOf (.dev d) with simp only [hrow] at h
    | propPos | propNeg => cases h; exact propSteer_bounded d
    | zero => cases h
    | _ => cases h; unfold Bounded; decide

/-! #### The control cycle and its sub-operations -/

/-- The command stays and nothing is issued. -/
def HoldsCommand (s t : State) : Prop := t.cmd = s.cmd ∧ t.trace = s.trace

/-- One bounded command is issued, and it is the one then held (R157). -/
def IssuesBounded (s t : State) : Prop := Bounded t.cmd ∧ t.trace = s.trace ++ [t.cmd]

/-- What the control cycle can do to the registers other than the indicators' (R37, R155, R157). -/
structure ControlCycleWrites (s t : State) : Prop where
  time : t.time = s.time
  pin : t.pin = s.pin
  start : t.start = s.start
  width : t.width = s.width
  mbx : t.mbx = s.mbx ∨ t.mbx = none
  command : HoldsCommand s t ∨ IssuesBounded s t

namespace ControlCycleWrites

theorem refl (s : State) : ControlCycleWrites s s := ⟨rfl, rfl, rfl, rfl, .inl rfl, .inl ⟨rfl, rfl⟩⟩

/-- Handing a value out writes no register (log 6). -/
theorem hand (r : Result) (s : State) : ControlCycleWrites s (s.hand r) := { refl s with }

theorem of_hand {r : Result} {s t : State} (h : ControlCycleWrites (s.hand r) t) :
    ControlCycleWrites s t := { h with }

/-- Writing the indicator registers afterwards changes none of the others. -/
theorem indicators {s t : State} (h : ControlCycleWrites s t) (out blink : PerSide Bool)
    (tgl : PerSide Word) :
    ControlCycleWrites s { t with out := out, blink := blink, tgl := tgl } := { h with }

theorem indicate {s t : State} (h : ControlCycleWrites s t) (w : Word) :
    ControlCycleWrites s (t.indicate w) := by
  rw [indicate_eq]
  exact h.indicators _ _ _

theorem steady (level : Bool) (s : State) : ControlCycleWrites s (s.steady level) :=
  (refl s).indicators _ _ _

theorem toggle (side : Side) (w : Word) (s : State) : ControlCycleWrites s (s.toggle side w) :=
  (refl s).indicators _ _ _

theorem turn (side : Side) (w : Word) (s : State) : ControlCycleWrites s (s.turn side w) := by
  rw [turn_eq]
  split <;> exact (refl s).indicators _ _ _

theorem manual (st h : Word) (s : State) : ControlCycleWrites s (s.manual st h) where
  time := manual_time ..
  pin := manual_pin ..
  start := manual_start ..
  width := manual_width ..
  mbx := .inl (manual_mbx ..)
  command := .inr ⟨manual_bounded st h s, manual_trace st h s⟩

theorem consume (m : Message) (s : State) : ControlCycleWrites s (s.consume m) where
  time := consume_time ..
  pin := consume_pin ..
  start := consume_start ..
  width := consume_width ..
  mbx := .inr (consume_mbx ..)
  command := by
    rw [consume_eq]
    split
    · next hmap => exact .inr ⟨mapMessage_bounded hmap, rfl⟩
    · exact .inl ⟨rfl, rfl⟩

theorem arbitrate (s : State) : ControlCycleWrites s (s.arbitrate s.snapshot) := by
  rw [arbitrate_eq]
  repeat' split
  · exact (manual ..).of_hand
  · exact (consume ..).of_hand
  · exact hand ..

end ControlCycleWrites

/-! #### Every operation writes what its agent may write -/

/-- What an operation of each agent can do (R37, R222). -/
def AgentWrites : Agent → State → State → Prop
  | .timeBase, s, t => ∃ v, t = { s with time := v }
  | .capture c, s, t => ∃ pin start width,
      t = { s with pin := pin, start := start, width := width } ∧
        ∀ d, d ≠ c → pin.get d = s.pin.get d ∧ start.get d = s.start.get d ∧ width.get d = s.width.get d
  | .linePort, s, t => s.mbx = none ∧ ∃ m, t = { s with mbx := m }
  | .controlCycle, s, t => ControlCycleWrites s t
  | .consumers, s, t => ∃ r, t = s.hand r
  | .environment, s, t => t.cmd = ⟨1500, 1500⟩ ∧ t.trace = s.trace

/-- The inversion lemma of `exec` by agents: a taken operation writes what its agent may write. -/
theorem exec_agentWrites {i : Instr} {s t : State} (h : exec i s = .next t) :
    AgentWrites (agentOf i) s t := by
  cases i with
  | tick => exact ⟨_, exec_tick.1 h⟩
  | reset _ => obtain rfl := exec_reset.1 h; exact ⟨rfl, rfl⟩
  | rdw _ => exact ⟨_, exec_rdw.1 h⟩
  | rise _ =>
    obtain ⟨-, rfl⟩ := exec_rise.1 h
    exact ⟨_, _, _, rfl, fun _ hd =>
      ⟨PerChannel.get_set_other _ _ hd, PerChannel.get_set_other _ _ hd, rfl⟩⟩
  | fall _ =>
    obtain ⟨-, rfl⟩ := exec_fall.1 h
    exact ⟨_, _, _, rfl, fun _ hd =>
      ⟨PerChannel.get_set_other _ _ hd, rfl, PerChannel.get_set_other _ _ hd⟩⟩
  | noedgeLow _ => exact ⟨_, _, _, exec_noedgeLow.1 h, fun _ _ => ⟨rfl, rfl, rfl⟩⟩
  | noedgeHigh _ => exact ⟨_, _, _, exec_noedgeHigh.1 h, fun _ _ => ⟨rfl, rfl, rfl⟩⟩
  | msgS => obtain ⟨hm, ht⟩ := exec_msgS.1 h; exact ⟨hm, _, ht⟩
  | msgN => obtain ⟨hm, ht⟩ := exec_msgN.1 h; exact ⟨hm, _, ht⟩
  | msgD _ => obtain ⟨hm, ht⟩ := exec_msgD.1 h; exact ⟨hm, _, ht⟩
  | msgIgnore => obtain ⟨hm, ht⟩ := exec_msgIgnore.1 h; exact ⟨hm, _, ht⟩
  | cycle => obtain rfl := exec_cycle.1 h; exact (ControlCycleWrites.arbitrate s).indicate _
  | selAuto _ => obtain ⟨-, rfl⟩ := exec_selAuto.1 h; exact .hand ..
  | selManual _ => obtain ⟨-, rfl⟩ := exec_selManual.1 h; exact .hand ..
  | manual _ _ => obtain ⟨-, rfl⟩ := exec_manual.1 h; exact .manual ..
  | autoConsume => obtain ⟨_, -, -, rfl⟩ := exec_autoConsume.1 h; exact .consume ..
  | autoHold => obtain ⟨-, -, rfl⟩ := exec_autoHold.1 h; exact .refl _
  | mapStop => obtain ⟨-, rfl⟩ := exec_mapStop.1 h; exact .hand ..
  | mapPropPos _ => obtain ⟨-, rfl⟩ := exec_mapPropPos.1 h; exact .hand ..
  | mapPropNeg _ => obtain ⟨-, rfl⟩ := exec_mapPropNeg.1 h; exact .hand ..
  | mapLockPos _ => obtain ⟨-, rfl⟩ := exec_mapLockPos.1 h; exact .hand ..
  | mapLockNeg _ => obtain ⟨-, rfl⟩ := exec_mapLockNeg.1 h; exact .hand ..
  | mapRevPos _ => obtain ⟨-, rfl⟩ := exec_mapRevPos.1 h; exact .hand ..
  | mapRevNeg _ => obtain ⟨-, rfl⟩ := exec_mapRevNeg.1 h; exact .hand ..
  | mapFullrevPos _ => obtain ⟨-, rfl⟩ := exec_mapFullrevPos.1 h; exact .hand ..
  | mapFullrevNeg _ => obtain ⟨-, rfl⟩ := exec_mapFullrevNeg.1 h; exact .hand ..
  | mapZero => obtain ⟨-, rfl⟩ := exec_mapZero.1 h; exact .hand ..
  | clsReversing => obtain ⟨-, rfl⟩ := exec_clsReversing.1 h; exact .steady ..
  | clsTurnLeft _ => obtain ⟨-, rfl⟩ := exec_clsTurnLeft.1 h; exact .turn ..
  | clsTurnRight _ => obtain ⟨-, rfl⟩ := exec_clsTurnRight.1 h; exact .turn ..
  | clsNeutral => obtain ⟨-, rfl⟩ := exec_clsNeutral.1 h; exact .steady ..
  | blinkToggle _ _ => obtain ⟨-, -, -, rfl⟩ := exec_blinkToggle.1 h; exact .toggle ..

/-- `RESET` is the environment's only operation (R222). -/
theorem eq_reset_of_agentOf {i : Instr} (h : agentOf i = .environment) : ∃ pins, i = .reset pins := by
  cases i with
  | reset pins => exact ⟨pins, rfl⟩
  | _ => cases h

/-! #### The command and the trace (R39, R44, R157) -/

/-- A taken operation holds the command, issues one bounded command, or resets it without an event. -/
theorem exec_command {i : Instr} {s t : State} (h : exec i s = .next t) :
    HoldsCommand s t ∨ IssuesBounded s t ∨ (t.cmd = ⟨1500, 1500⟩ ∧ t.trace = s.trace) := by
  have hw := exec_agentWrites h
  cases ha : agentOf i <;> rw [ha] at hw
  case timeBase => obtain ⟨_, rfl⟩ := hw; exact .inl ⟨rfl, rfl⟩
  case capture => obtain ⟨_, _, _, rfl, -⟩ := hw; exact .inl ⟨rfl, rfl⟩
  case linePort => obtain ⟨-, _, rfl⟩ := hw; exact .inl ⟨rfl, rfl⟩
  case controlCycle => exact (ControlCycleWrites.command hw).imp_right .inl
  case consumers => obtain ⟨_, rfl⟩ := hw; exact .inl ⟨rfl, rfl⟩
  case environment => exact .inr (.inr hw)

/-- Settles O54, from the three things an operation can do to the command. -/
theorem traceGrowsByTheHeldCommand : Obligations.TraceGrowsByTheHeldCommand := by
  unfold Obligations.TraceGrowsByTheHeldCommand
  intro i s t h
  obtain ⟨-, htrace⟩ | ⟨-, htrace⟩ | ⟨-, htrace⟩ := exec_command h
  · exact .inl htrace
  · exact .inr htrace
  · exact .inl htrace

/-- Every operation keeps the held and the issued commands bounded (R39). -/
theorem exec_keeps_commandsBounded {i : Instr} {s t : State} (hs : CommandsBounded s)
    (h : exec i s = .next t) : CommandsBounded t := by
  obtain ⟨hheld, hissued⟩ := hs
  obtain ⟨hcmd, htrace⟩ | ⟨hcmd, htrace⟩ | ⟨hcmd, htrace⟩ := exec_command h
  · exact ⟨hcmd ▸ hheld, htrace ▸ hissued⟩
  · refine ⟨hcmd, fun c hc => ?_⟩
    rw [htrace, List.mem_append, List.mem_singleton] at hc
    obtain hc | rfl := hc
    · exact hissued c hc
    · exact hcmd
  · exact ⟨hcmd ▸ bounded_reset, htrace ▸ hissued⟩

/-- Every step runs some operation once its event has been taken (R4, R11). -/
theorem step_eq_exec (s : State) : ∃ i, step s = exec i s.afterFetch := by
  obtain ⟨i, hdec, -⟩ := canHappen_decodes_enabled (canHappen_nextInput s)
  exact ⟨i, step_of_decode hdec⟩

/-- Settles O55: taking the event changes no register, and every operation keeps the bounds. -/
theorem stepKeepsCommandsBounded : Obligations.StepKeepsCommandsBounded := by
  unfold Obligations.StepKeepsCommandsBounded
  intro s t hs h
  obtain ⟨i, hi⟩ := step_eq_exec s
  have hfetch : CommandsBounded s.afterFetch := by simpa [CommandsBounded] using hs
  exact exec_keeps_commandsBounded hfetch (hi ▸ h)

/-! #### The single writer of each register (R37) -/

/-- Settles O53, agent by agent, from what each may write. -/
theorem singleWriters : Obligations.SingleWriters := by
  unfold Obligations.SingleWriters
  intro i s t h hreset
  have hw := exec_agentWrites h
  cases ha : agentOf i <;> rw [ha] at hw
  case timeBase => obtain ⟨_, rfl⟩ := hw; simp
  case capture c =>
    obtain ⟨_, _, _, rfl, hother⟩ := hw
    simp only [Agent.capture.injEq]
    refine ⟨by simp, fun d hd => ?_, by simp +contextual, by simp, by simp⟩
    by_contra hne
    simp [hother d (Ne.symm hne)] at hd
  case linePort =>
    obtain ⟨hm, _, rfl⟩ := hw
    simp [hm]
  case controlCycle =>
    obtain ⟨htime, hpin, hstart, hwidth, hmbx, -⟩ := hw
    simp only [htime, hpin, hstart, hwidth]
    refine ⟨by simp, by simp, fun hnone hsome => ?_, by simp, by simp⟩
    obtain hm | hm := hmbx
    · exact absurd (hm.trans hnone) hsome
    · exact absurd hm hsome
  case consumers =>
    obtain ⟨_, rfl⟩ := hw
    simp +contextual
  case environment =>
    obtain ⟨pins, rfl⟩ := eq_reset_of_agentOf ha
    exact absurd rfl (hreset pins)

/-! #### The reset state and the ports (R38, R41) -/

/-- Settles O50: each field of `State.reset` is the value of R38. -/
theorem stateAfterReset : Obligations.StateAfterReset := by
  unfold Obligations.StateAfterReset
  rfl

/-- The reset command is bounded and nothing has been issued (R38, R39). -/
theorem resetWith_commandsBounded (pins : PerChannel Bool) : CommandsBounded (State.resetWith pins) :=
  ⟨bounded_reset, by simp [State.resetWith]⟩

/-- After reset the class is NEUTRAL, with both lamps dark and no blinking (R38, R199). -/
theorem resetWith_indicatorTable (pins : PerChannel Bool) : IndicatorTable (State.resetWith pins) := by
  simp [IndicatorTable, State.resetWith]

/-- Settles O57; `State.reset` is the reset state with all pins low. -/
theorem resetMeetsInvariants : Obligations.ResetMeetsInvariants := by
  unfold Obligations.ResetMeetsInvariants
  exact ⟨fun pins => ⟨resetWith_commandsBounded pins, resetWith_indicatorTable pins⟩,
    resetWith_commandsBounded _, resetWith_indicatorTable _⟩

/-- The line port is open exactly while the mailbox is empty (R41). -/
theorem lineReady_iff {s : State} : s.lineReady = true ↔ s.mbx = none := Option.isNone_iff_eq_none

/-- The read port shows the width of the channel it selects (R41). -/
theorem rdwData_index (s : State) (c : Channel) : s.rdwData c.index = s.width.get c := by
  simp [State.rdwData]

/-- Settles O58, port by port. -/
theorem portsShowTheRegisters : Obligations.PortsShowTheRegisters := by
  unfold Obligations.PortsShowTheRegisters
  exact fun s => ⟨rfl, rfl, rfl, rfl, lineReady_iff, rdwData_index s⟩

end Sys2Proof.Machine

/-! ### Edges of different channels (20_memory.md section 6, R69) -/

namespace Sys2Proof.Machine

open Sys2Proof

theorem runAll_nil_eq_next {s t : State} : runAll [] s = .next t ↔ t = s := by
  simp only [runAll, Host.Outcome.next.injEq]; exact eq_comm

/-- A run of a longer list is taken exactly when its first operation is and the others are after it. -/
theorem runAll_cons_eq_next {i : Instr} {is : List Instr} {s t : State} :
    runAll (i :: is) s = .next t ↔ ∃ u, exec i s = .next u ∧ runAll is u = .next t := by
  rw [runAll]
  cases exec i s <;> simp

/-- The state after an edge of channel `c` on a pin whose level was low or high: `RISE` from low (R111),
`FALL` from high (R112). -/
def State.edge (c : Channel) : Bool → State → State
  | false, s => { s with pin := s.pin.set c true, start := s.start.set c s.time }
  | true, s => { s with pin := s.pin.set c false, width := s.width.set c (s.time - s.start.get c) }

/-- Each edge of a channel is taken exactly from one level of its pin. -/
theorem exec_edge {c : Channel} {i : Instr} (hi : i = .rise c ∨ i = .fall c) :
    ∃ p, ∀ s t, exec i s = .next t ↔ s.pin.get c = p ∧ t = s.edge c p := by
  obtain rfl | rfl := hi
  · exact ⟨false, fun _ _ => exec_rise⟩
  · exact ⟨true, fun _ _ => exec_fall⟩

/-- An edge leaves the pins of the other channels alone. -/
theorem edge_pin_get_other {c d : Channel} (h : d ≠ c) (p : Bool) (s : State) :
    (s.edge c p).pin.get d = s.pin.get d := by
  cases p <;> exact PerChannel.get_set_other _ _ h

/-- Edges of different channels write different elements, and a falling edge reads only its own `START`. -/
theorem edge_comm {c d : Channel} (h : c ≠ d) (p q : Bool) (s : State) :
    (s.edge c p).edge d q = (s.edge d q).edge c p := by
  cases p <;> cases q <;>
    simp [State.edge, PerChannel.set_set_comm _ _ _ h, PerChannel.get_set_other _ _ h,
      PerChannel.get_set_other _ _ h.symm]

/-- Settles O21: neither edge changes the pin that enables the other, and their writes commute. -/
theorem captureStepsCommute : Obligations.CaptureStepsCommute := by
  unfold Obligations.CaptureStepsCommute
  intro c d i j s t hcd hi hj h
  obtain ⟨p, hexecI⟩ := exec_edge hi
  obtain ⟨q, hexecJ⟩ := exec_edge hj
  simp only [runAll_cons_eq_next, runAll_nil_eq_next, hexecI, hexecJ] at h ⊢
  obtain ⟨_, ⟨hc, rfl⟩, _, ⟨hd, rfl⟩, rfl⟩ := h
  rw [edge_pin_get_other hcd.symm] at hd
  have hc' : (s.edge d q).pin.get c = p := (edge_pin_get_other hcd q s).trans hc
  exact ⟨_, ⟨hd, rfl⟩, _, ⟨hc', rfl⟩, edge_comm hcd p q s⟩

end Sys2Proof.Machine

/-! ### Encoding and decoding (30_encoding.md) -/

namespace Sys2Proof

open Machine

/-! #### Pin codes (R81) -/

/-- The operation of a pin event of channel `c` with previous level `p` and new level `n` (R81). -/
def Channel.pinInstr (c : Channel) : (p n : Bool) → Instr
  | false, true => .rise c
  | true, false => .fall c
  | false, false => .noedgeLow c
  | true, true => .noedgeHigh c

/-- The new-level bit of a pin code (R81). -/
theorem encodePin_new (c : Channel) (p n : Bool) : (encodePin c p n).getLsbD 0 = n := by
  cases c <;> cases p <;> cases n <;> rfl

/-- The low two bits of a pin code are its levels (R81). -/
theorem pinLevels_toNat (code : BitVec 5) :
    code.toNat % 4 = 2 * (code.getLsbD 1).toNat + (code.getLsbD 0).toNat := by
  revert code; decide

/-- A pin code whose channel exists decodes by its two levels (R81). -/
theorem decodePin_of_channel {code : BitVec 5} {c : Channel}
    (h : Channel.ofIndex (code.extractLsb' 2 3) = some c) :
    decodePin code = .ok (c.pinInstr (code.getLsbD 1) (code.getLsbD 0)) := by
  simp only [decodePin, h]
  cases code.getLsbD 1 <;> cases code.getLsbD 0 <;> rfl

/-- A pin code of index 5 to 7 decodes to no operation (R62, R81). -/
theorem decodePin_of_noChannel {code : BitVec 5}
    (h : Channel.ofIndex (code.extractLsb' 2 3) = none) :
    decodePin code = .error (.noChannel (code.extractLsb' 2 3)) := by
  simp only [decodePin, h]

theorem decodePin_encodePin (c : Channel) (p n : Bool) :
    decodePin (encodePin c p n) = .ok (c.pinInstr p n) := by
  rw [decodePin_of_channel (c := c) (by simp [encodePin_channel]), encodePin_previous, encodePin_new]

/-! #### Rows of format DEV (R87) -/

/-- The operation of a row of format DEV, with the deviation as its operand (R87). -/
def Bucket.instr (d : Int) : Bucket → Instr
  | .stop => .mapStop
  | .propPos => .mapPropPos d
  | .propNeg => .mapPropNeg d
  | .lockPos => .mapLockPos d
  | .lockNeg => .mapLockNeg d
  | .revPos => .mapRevPos d
  | .revNeg => .mapRevNeg d
  | .fullrevPos => .mapFullrevPos d
  | .fullrevNeg => .mapFullrevNeg d
  | .zero => .mapZero

/-- A deviation selects the operation of its bucket (R87). -/
theorem decodeSelector_dev {d : Int} {b : Bucket} (h : bucketOf (.dev d) = b) :
    decodeSelector (.dev (.dev d)) = .ok (b.instr d) := by
  simp only [decodeSelector, bucketInstr, h]
  cases b <;> rfl

/-- The operand of a row that has one is well formed exactly when it lies in that row's bucket (R87). -/
theorem wellFormed_bucket_instr {d : Int} {b : Bucket} (hstop : b ≠ .stop) (hzero : b ≠ .zero) :
    WellFormed (b.instr d) ↔ bucketOf (.dev d) = b := by
  rw [bucketOf_dev_eq]
  cases b with
  | stop => exact absurd rfl hstop
  | zero => exact absurd rfl hzero
  | propPos | propNeg | lockPos | lockNeg | revPos | revNeg | fullrevPos | fullrevNeg =>
    simp [WellFormed, wellFormed, Bucket.instr]

/-- A well-formed operation of a row with an operand is what its deviation selects (R87). -/
theorem decodeSelector_dev_of_wellFormed {d : Int} (b : Bucket) (hstop : b ≠ .stop) (hzero : b ≠ .zero)
    (h : WellFormed (b.instr d)) : decodeSelector (.dev (.dev d)) = .ok (b.instr d) :=
  decodeSelector_dev ((wellFormed_bucket_instr hstop hzero).1 h)

/-- Whatever row a message selects, its operand is well formed (R87). -/
theorem wellFormed_bucketInstr (msg : Message) : WellFormed (bucketInstr msg) := by
  cases msg with
  | stop => rfl
  | dev d =>
    have hrow : bucketInstr (.dev d) = (bucketOf (.dev d)).instr d :=
      Except.ok.inj (decodeSelector_dev rfl)
    rw [hrow]
    have hstop : bucketOf (.dev d) ≠ .stop := fun h => bucketOf_dev_eq.1 h
    by_cases hzero : bucketOf (.dev d) = .zero
    · rw [hzero]; rfl
    exact (wellFormed_bucket_instr hstop hzero).2 rfl

/-! #### The other selectors (R85, R88, R196) -/

/-- A MODE width selects by its comparison with 1500 (R85). -/
theorem decodeSelector_mode (m : Word) :
    decodeSelector (.mode m) = .ok (if 1500 < m.toNat then .selAuto m else .selManual m) := by
  split_ifs with h
  · simp only [decodeSelector, modeOf_eq_autonomous.2 h]
  · simp only [decodeSelector, modeOf_eq_manual.2 (not_lt.1 h)]

/-- The command the encoder picks for a turn is of that turn's class (R88). -/
theorem classOf_turnCommand (side : Side) : classOf (turnCommand side) = .turn side := by
  cases side <;> rfl

/-- A toggle time 200000 ticks back is due (R196). -/
theorem toggleDue_sub (t : Word) : toggleDue t (t - 200000) = true := by
  rw [toggleDue_iff, sub_sub_cancel]; decide

/-! #### Whitespace and trimming (R82) -/

/-- The six whitespace bytes (R82). -/
theorem isSpace_iff {b : Byte} :
    isSpace b = true ↔ b ∈ [0x09#8, 0x0A#8, 0x0B#8, 0x0C#8, 0x0D#8, 0x20#8] := by
  simp [isSpace, or_assoc]

theorem isSpace_eq_false_iff {b : Byte} :
    isSpace b = false ↔ b ∉ [0x09#8, 0x0A#8, 0x0B#8, 0x0C#8, 0x0D#8, 0x20#8] := by
  rw [← isSpace_iff, Bool.not_eq_true]

/-- Trimming drops a run at the left end, then one at the right end. -/
theorem trim_eq_rdropWhile (b : List Byte) : trim b = (b.dropWhile isSpace).rdropWhile isSpace := rfl

/-- A line is its left run of whitespace, its trim, and the right run of what is left (R82). -/
theorem takeWhile_trim_rtakeWhile (b : List Byte) :
    b = b.takeWhile isSpace ++ trim b ++ (b.dropWhile isSpace).rtakeWhile isSpace := by
  rw [trim_eq_rdropWhile, List.append_assoc, List.rdropWhile_append_rtakeWhile,
    List.takeWhile_append_dropWhile]

theorem trim_head_not_isSpace {b : List Byte} {x : Byte} (h : (trim b).head? = some x) :
    isSpace x = false := by
  have hprefix : trim b <+: b.dropWhile isSpace := List.rdropWhile_prefix isSpace _
  have hhead : (b.dropWhile isSpace).head? = some x := by
    obtain ⟨q, hq⟩ := hprefix
    simp [← hq, h]
  simpa [hhead] using List.head?_dropWhile_not isSpace b

theorem trim_getLast_not_isSpace {b : List Byte} {x : Byte} (h : (trim b).getLast? = some x) :
    isSpace x = false := by
  have hne : trim b ≠ [] := by rintro hnil; simp [hnil] at h
  rw [List.getLast?_eq_some_getLast hne, Option.some.injEq] at h
  subst h
  exact Bool.eq_false_iff.2 (List.rdropWhile_last_not isSpace (b.dropWhile isSpace) hne)

/-- A line without whitespace is its own trim. -/
theorem trim_of_no_space {b : List Byte} (h : ∀ x ∈ b, isSpace x = false) : trim b = b :=
  trim_eq_self (fun _ hx => h _ (List.mem_of_mem_head? hx)) (fun _ hx => h _ (List.mem_of_getLast? hx))

/-- The text of an integer holds no whitespace (R84). -/
theorem encodeInteger_no_space (d : Int) : ∀ x ∈ encodeInteger d, isSpace x = false := by
  have hdigits : ∀ x ∈ decimal d.natAbs, isSpace x = false := fun x hx =>
    isDigit_not_isSpace (List.all_eq_true.1 (decimalAux_digits _ _ [] rfl) x hx)
  unfold encodeInteger
  split
  · exact List.forall_mem_cons.2 ⟨rfl, hdigits⟩
  · exact hdigits

/-! #### Signed integers (R84) -/

/-- The digit bytes are those of the numbers 0 to 9 (R84). -/
theorem isDigit_iff {b : Byte} : isDigit b = true ↔ ∃ k, k ≤ 9 ∧ digitByte k = b := by
  constructor
  · intro h
    simp only [isDigit, Bool.and_eq_true, decide_eq_true_eq] at h
    refine ⟨b.toNat - 0x30, by omega, BitVec.eq_of_toNat_eq ?_⟩
    rw [digitByte_toNat (by omega)]; omega
  · rintro ⟨k, hk, rfl⟩
    exact isDigit_digitByte (by omega)

/-- A row of digit bytes is the bytes of a row of numbers 0 to 9. -/
theorem all_isDigit_iff {v : List Byte} :
    v.all isDigit = true ↔ ∃ ds : List Nat, (∀ k ∈ ds, k ≤ 9) ∧ v = ds.map digitByte := by
  constructor
  · intro h
    induction v with
    | nil => exact ⟨[], by simp, rfl⟩
    | cons b v ih =>
      rw [List.all_cons, Bool.and_eq_true, isDigit_iff] at h
      obtain ⟨⟨k, hk, rfl⟩, hv⟩ := h
      obtain ⟨ds, hds, rfl⟩ := ih hv
      exact ⟨k :: ds, List.forall_mem_cons.2 ⟨hk, hds⟩, rfl⟩
  · rintro ⟨ds, hds, rfl⟩
    simp only [List.all_map, List.all_eq_true, Function.comp_apply]
    exact fun k hk => isDigit_iff.2 ⟨k, hds k hk, rfl⟩

/-- The value of a row of digit bytes is that of its digits in base ten (R84). -/
theorem digitsValue_map_digitByte {ds : List Nat} (h : ∀ k ∈ ds, k ≤ 9) :
    digitsValue (ds.map digitByte) = Nat.ofDigits 10 ds.reverse := by
  induction ds with
  | nil => rfl
  | cons k ds ih =>
    obtain ⟨hk, hds⟩ := List.forall_mem_cons.1 h
    rw [List.map_cons, digitsValue_cons, digitByte_toNat (by omega), ih hds, List.length_map,
      Nat.ofDigits_reverse_cons, Nat.add_sub_cancel_left, Nat.mul_comm, Nat.add_comm]

/-- Bytes read as the number `n` exactly when they are one or more digits of value `n` (R84). -/
theorem decodeDigits_eq_some {v : List Byte} {n : Nat} :
    decodeDigits v = some n ↔ ∃ ds : List Nat, ds ≠ [] ∧ (∀ k ∈ ds, k ≤ 9) ∧
      v = ds.map digitByte ∧ n = Nat.ofDigits 10 ds.reverse := by
  rw [decodeDigits, Option.ite_none_right_eq_some, Option.some.injEq, all_isDigit_iff]
  constructor
  · rintro ⟨⟨hne, ds, hds, rfl⟩, rfl⟩
    exact ⟨ds, by simpa using hne, hds, rfl, digitsValue_map_digitByte hds⟩
  · rintro ⟨ds, hne, hds, rfl, rfl⟩
    exact ⟨⟨by simpa using hne, ds, hds, rfl⟩, digitsValue_map_digitByte hds⟩

/-- Bytes read as the integer `d` exactly when they are an optional sign and a number whose signed value
is `d` (R84). -/
theorem decodeInteger_eq_some {v : List Byte} {d : Int} :
    decodeInteger v = some d ↔ ∃ (sign ds : List Byte) (n : Nat), v = sign ++ ds ∧
      decodeDigits ds = some n ∧
      ((sign = [] ∨ sign = [0x2B#8]) ∧ d = n ∨ sign = [0x2D#8] ∧ d = -(n : Int)) := by
  constructor
  · intro h
    cases v with
    | nil => cases h
    | cons b ds =>
      rw [decodeInteger] at h
      split_ifs at h with hminus hplus <;> obtain ⟨n, hn, rfl⟩ := Option.map_eq_some_iff.1 h
      · exact ⟨[b], ds, n, rfl, hn, .inr ⟨hminus ▸ rfl, rfl⟩⟩
      · exact ⟨[b], ds, n, rfl, hn, .inl ⟨.inr (hplus ▸ rfl), rfl⟩⟩
      · exact ⟨[], b :: ds, n, rfl, hn, .inl ⟨.inl rfl, rfl⟩⟩
  · rintro ⟨sign, ds, n, rfl, hn, ⟨rfl | rfl, rfl⟩ | ⟨rfl, rfl⟩⟩
    · have hdigits : ds.all isDigit = true := by
        obtain ⟨ks, -, hks, hds, -⟩ := decodeDigits_eq_some.1 hn
        exact all_isDigit_iff.2 ⟨ks, hks, hds⟩
      rw [List.nil_append, decodeInteger_digits hdigits, hn, Option.map_some]
    · simp [decodeInteger, hn]
    · simp [decodeInteger, hn]

/-! #### Text lines (R83) -/

/-- With `LINE_MAX` unbounded, a line decodes by its trim (R83, R91). -/
theorem decodeLine_eq (b : List Byte) : decodeLine b = decodeTrimmed (trim b) := rfl

/-- The row of `D:` and an integer (R83). -/
theorem decodeTrimmed_deviation {v : List Byte} {d : Int} (h : decodeInteger v = some d) :
    decodeTrimmed (0x44#8 :: 0x3A#8 :: v) = .msgD d := by
  simp [decodeTrimmed, h]

/-- The last row: what no other row matches is ignored (R83). -/
theorem decodeTrimmed_ignored {u : List Byte} (hS : u ≠ [0x53#8]) (hN : u ≠ [0x4E#8])
    (hD : ∀ v d, u = 0x44#8 :: 0x3A#8 :: v → decodeInteger v ≠ some d) :
    decodeTrimmed u = .msgIgnore := by
  match u with
  | [] => rfl
  | [x] =>
    have hxS : x ≠ 0x53#8 := by simpa using hS
    have hxN : x ≠ 0x4E#8 := by simpa using hN
    simp [decodeTrimmed, hxS, hxN]
  | x :: y :: v =>
    rw [decodeTrimmed]
    split_ifs with hmark
    · obtain ⟨rfl, rfl⟩ := hmark
      rw [Option.eq_none_iff_forall_ne_some.2 fun d => hD v d rfl]
    · rfl

/-- The line the encoder writes for a deviation is read back as it (R83, R84). -/
theorem decodeLine_encodeInteger (d : Int) :
    decodeLine (0x44#8 :: 0x3A#8 :: encodeInteger d) = .msgD d := by
  have hspace : ∀ x ∈ 0x44#8 :: 0x3A#8 :: encodeInteger d, isSpace x = false :=
    List.forall_mem_cons.2 ⟨rfl, List.forall_mem_cons.2 ⟨rfl, encodeInteger_no_space d⟩⟩
  rw [decodeLine_eq, trim_of_no_space hspace, decodeTrimmed_deviation (decodeInteger_encodeInteger d)]

/-! #### The encoder is inverted, and what decodes is in range -/

/-- Settles O7, format by format: pin codes by their bits, lines by the digits written and read back,
selectors by the range their row has. -/
theorem decodeEncode : Obligations.DecodeEncode := by
  unfold Obligations.DecodeEncode
  intro i h
  cases i with
  | tick | cycle | reset _ => rfl
  | rdw c => simp [encode, decode, decodeInput, decodeRdw]
  | rise c => exact decodePin_encodePin c false true
  | fall c => exact decodePin_encodePin c true false
  | noedgeLow c => exact decodePin_encodePin c false false
  | noedgeHigh c => exact decodePin_encodePin c true true
  | msgS | msgN | msgIgnore => rfl
  | msgD d => exact congrArg Except.ok (decodeLine_encodeInteger d)
  | selAuto m => exact (decodeSelector_mode m).trans (by rw [if_pos (of_decide_eq_true h)])
  | selManual m => exact (decodeSelector_mode m).trans (by rw [if_neg (not_lt.2 (of_decide_eq_true h))])
  | manual _ _ | autoConsume | autoHold => rfl
  | mapStop => rfl
  | mapPropPos _ => exact decodeSelector_dev_of_wellFormed .propPos nofun nofun h
  | mapPropNeg _ => exact decodeSelector_dev_of_wellFormed .propNeg nofun nofun h
  | mapLockPos _ => exact decodeSelector_dev_of_wellFormed .lockPos nofun nofun h
  | mapLockNeg _ => exact decodeSelector_dev_of_wellFormed .lockNeg nofun nofun h
  | mapRevPos _ => exact decodeSelector_dev_of_wellFormed .revPos nofun nofun h
  | mapRevNeg _ => exact decodeSelector_dev_of_wellFormed .revNeg nofun nofun h
  | mapFullrevPos _ => exact decodeSelector_dev_of_wellFormed .fullrevPos nofun nofun h
  | mapFullrevNeg _ => exact decodeSelector_dev_of_wellFormed .fullrevNeg nofun nofun h
  | mapZero => rfl
  | clsReversing | clsTurnLeft _ | clsTurnRight _ | clsNeutral => rfl
  | blinkToggle side t =>
    simp only [encode, decode, decodeSelector, classOf_turnCommand, toggleDue_sub]
    cases side <;> rfl

/-- Every event decodes to an operation whose row has no range (R81, R83, R89). -/
theorem decodeInput_wellFormed {e : Input} {i : Instr} (h : decodeInput e = .ok i) : WellFormed i := by
  cases e with
  | tick | cycleGo | rst _ => cases h; rfl
  | rdw sel =>
    simp only [decodeInput, decodeRdw] at h
    split at h <;> cases h
    rfl
  | pin code =>
    simp only [decodeInput] at h
    cases hc : Channel.ofIndex (code.extractLsb' 2 3) with
    | none => rw [decodePin_of_noChannel hc] at h; cases h
    | some c =>
      rw [decodePin_of_channel hc] at h
      cases h
      cases code.getLsbD 1 <;> cases code.getLsbD 0 <;> rfl
  | line b =>
    cases h
    obtain hi | hi | ⟨_, hi⟩ | hi := decodeTrimmed_eq (trim b) <;> rw [decodeLine_eq, hi] <;> rfl

/-- Every selector selects an operation in the range of its row (R85 to R88, R196). -/
theorem decodeSelector_wellFormed {q : Selector} {i : Instr} (h : decodeSelector q = .ok i) :
    WellFormed i := by
  cases q with
  | mode m =>
    rw [decodeSelector_mode] at h
    split_ifs at h with hm <;> cases h
    · exact decide_eq_true hm
    · exact decide_eq_true (not_lt.1 hm)
  | phase m valid _ _ =>
    cases m <;> cases valid <;> cases h <;> rfl
  | dev msg => cases h; exact wellFormed_bucketInstr msg
  | ind cmd _ =>
    simp only [decodeSelector] at h
    split at h <;> cases h <;> rfl
  | blink cmd _ _ _ =>
    simp only [decodeSelector] at h
    repeat' split at h
    all_goals cases h <;> rfl

/-- Settles O8, for the events and for the selectors. -/
theorem decodedIsWellFormed : Obligations.DecodedIsWellFormed := by
  unfold Obligations.DecodedIsWellFormed
  intro q i h
  cases q with
  | event e => exact decodeInput_wellFormed h
  | selected q => exact decodeSelector_wellFormed h

/-! #### Lines -/

/-- Settles O4: the two runs removed are whitespace, and neither end of what is left is. -/
theorem trimRemovesBothEnds : Obligations.TrimRemovesBothEnds := by
  unfold Obligations.TrimRemovesBothEnds
  intro b
  refine ⟨_, _, takeWhile_trim_rtakeWhile b, fun x hx => isSpace_iff.1 ?_,
    fun x hx => isSpace_eq_false_iff.1 (trim_head_not_isSpace hx),
    fun x hx => isSpace_eq_false_iff.1 (trim_getLast_not_isSpace hx)⟩
  obtain hx | hx := List.mem_append.1 hx
  · exact List.mem_takeWhile_imp hx
  · exact List.mem_rtakeWhile_imp hx

/-- Settles O5, from what a sign and what a row of digits is. -/
theorem signedIntegersAreRead : Obligations.SignedIntegersAreRead := by
  unfold Obligations.SignedIntegersAreRead
  intro v d
  rw [decodeInteger_eq_some]
  constructor
  · rintro ⟨sign, v, n, rfl, hn, hd⟩
    obtain ⟨ds, hne, hds, rfl, rfl⟩ := decodeDigits_eq_some.1 hn
    exact ⟨sign, ds, hne, hds, rfl, hd⟩
  · rintro ⟨sign, ds, hne, hds, rfl, hd⟩
    exact ⟨sign, _, _, rfl, decodeDigits_eq_some.2 ⟨ds, hne, hds, rfl, rfl⟩, hd⟩

/-- Settles O6, row by row. -/
theorem linesDecodeByFirstRow : Obligations.LinesDecodeByFirstRow := by
  unfold Obligations.LinesDecodeByFirstRow
  intro b
  rw [decodeLine_eq]
  refine ⟨fun hS => ?_, fun hN => ?_, fun v d hD hd => ?_, decodeTrimmed_ignored⟩
  · rw [hS]; rfl
  · rw [hN]; rfl
  · rw [hD, decodeTrimmed_deviation hd]

/-! #### Codes by their rows -/

/-- Settles O2: the decoder is evaluated on each of the codes. -/
theorem sampleCodesDecode : Obligations.SampleCodesDecode := by
  unfold Obligations.SampleCodesDecode
  and_intros <;> rfl

/-- Settles O3, from the channel and the two levels a pin code holds. -/
theorem pinCodesDecode : Obligations.PinCodesDecode := by
  unfold Obligations.PinCodesDecode
  intro code
  refine ⟨fun c hc => ?named, fun hcode i hi => ?unnamed, fun c => by cases c <;> rfl⟩
  case named =>
    have hindex : Channel.ofIndex (code.extractLsb' 2 3) = some c :=
      channel_ofIndex_eq_some.2 (BitVec.eq_of_toNat_eq ((pinChannel_toNat code).trans hc))
    rw [decodeInput, decodePin_of_channel hindex, pinLevels_toNat]
    cases code.getLsbD 1 <;> cases code.getLsbD 0 <;> rfl
  case unnamed =>
    have hnone : Channel.ofIndex (code.extractLsb' 2 3) = none :=
      channel_ofIndex_eq_none.2 ((pinChannel_toNat code).symm ▸ hcode)
    rw [decodeInput, decodePin_of_noChannel hnone] at hi
    cases hi

/-- Settles O9: the mode by its comparison, the path by the mode and whether a message is held. -/
theorem modeAndPhaseSelection : Obligations.ModeAndPhaseSelection := by
  unfold Obligations.ModeAndPhaseSelection
  exact ⟨decodeSelector_mode, fun _ _ _ => rfl, fun _ _ => rfl, fun _ _ => rfl⟩

/-- Settles O10: in each range the deviation has that range's bucket. -/
theorem devRowsSelect : Obligations.DevRowsSelect := by
  unfold Obligations.DevRowsSelect
  refine ⟨rfl, fun d => ⟨fun h => ?_, fun h0 h1 => ?_, fun h0 h1 => ?_, fun h0 h1 => ?_, fun h => ?_,
    fun h0 h1 => ?_, fun h0 h1 => ?_, fun h0 h1 => ?_, fun h => ?_⟩⟩
  · exact decodeSelector_dev (b := .fullrevNeg) (bucketOf_dev_eq.2 h)
  · exact decodeSelector_dev (b := .revNeg) (bucketOf_dev_eq.2 (by omega))
  · exact decodeSelector_dev (b := .lockNeg) (bucketOf_dev_eq.2 (by omega))
  · exact decodeSelector_dev (b := .propNeg) (bucketOf_dev_eq.2 (by omega))
  · exact decodeSelector_dev (b := .zero) (bucketOf_dev_eq.2 h)
  · exact decodeSelector_dev (b := .propPos) (bucketOf_dev_eq.2 (by omega))
  · exact decodeSelector_dev (b := .lockPos) (bucketOf_dev_eq.2 (by omega))
  · exact decodeSelector_dev (b := .revPos) (bucketOf_dev_eq.2 (by omega))
  · exact decodeSelector_dev (b := .fullrevPos) (bucketOf_dev_eq.2 h)

end Sys2Proof

/-! ### The stimulus pulse (30_encoding.md section 9, R93) -/

namespace Sys2Proof.Machine

open Sys2Proof

/-- A step takes the first event lined up when it can happen, and runs its operation. -/
theorem step_cons {s : State} {e : Input} {rest : List Input} {i : Instr} (h : s.inputs = e :: rest)
    (he : s.canHappen e = true) (hdec : decodeInput e = .ok i) :
    step s = exec i { s with inputs := rest } := by
  obtain ⟨hnext, hafter⟩ := fetch_cons h he
  rw [step_of_decode (hnext ▸ hdec), hafter]

theorem runSteps_succ {n : Nat} {s t : State} (h : step s = .next t) :
    runSteps (n + 1) s = runSteps n t := by
  rw [runSteps, h]

/-- An edge event lined up first from the level it needs is taken (R111, R112). -/
theorem step_edge {s : State} {c : Channel} {p : Bool} {rest : List Input}
    (h : s.inputs = .pin (encodePin c p !p) :: rest) (hp : s.pin.get c = p) :
    step s = .next ({ s with inputs := rest }.edge c p) := by
  rw [step_cons h ((canHappen_encodePin s c p _).2 hp) (decodePin_encodePin c p _)]
  cases p with
  | false => exact exec_rise.2 ⟨hp, rfl⟩
  | true => exact exec_fall.2 ⟨hp, rfl⟩

/-- The steps of `ticks n` advance `TIME` by `n` and nothing else (R93, R110). -/
theorem runSteps_ticks {n k : Nat} {s : State} {rest : List Input} (h : s.inputs = ticks n ++ rest) :
    runSteps (n + k) s = runSteps k { s with time := s.time + BitVec.ofNat 32 n, inputs := rest } := by
  induction n generalizing s with
  | zero =>
    have hin : s.inputs = rest := h
    simp [← hin]
  | succ n ih =>
    have hstep : step s = .next { s with time := s.time + 1, inputs := ticks n ++ rest } :=
      (step_cons h rfl rfl).trans (exec_tick.2 rfl)
    rw [Nat.add_right_comm, runSteps_succ hstep, ih rfl]
    simp only [Nat.add_comm n 1, BitVec.ofNat_add, ← BitVec.add_assoc]
    rfl

/-- Settles O18: the rising edge, the ticks and the falling edge, one after the other. -/
theorem pulseNotationPublishes : Obligations.PulseNotationPublishes := by
  unfold Obligations.PulseNotationPublishes
  intro c w s rest hlow hw hin
  have hrise : s.inputs = .pin (encodePin c false true) :: (ticks w ++ (fallOf c ++ rest)) := by
    simpa [pulse, riseOf] using hin
  have hhigh : (s.pin.set c true).get c = true := PerChannel.get_set_same ..
  rw [runSteps_succ (step_edge hrise hlow), runSteps_ticks rfl, runSteps_succ (step_edge (c := c) rfl hhigh)]
  refine ⟨_, rfl, ?width, ?time, PerChannel.get_set_same .., rfl,
    fun d hd => PerChannel.get_set_other _ _ hd, rfl, rfl⟩
  case width => simpa [State.edge] using hw
  case time => simp [State.edge]

end Sys2Proof.Machine

/-! ### The capture registers along a run (40_capture.md) -/

namespace Sys2Proof.Machine

open Sys2Proof

/-! #### Runs of operations -/

/-- A run of two lists is a run of the first, then of the second. -/
theorem runAll_append_eq_next {is js : List Instr} {s t : State} :
    runAll (is ++ js) s = .next t ↔ ∃ u, runAll is s = .next u ∧ runAll js u = .next t := by
  induction is generalizing s with
  | nil => simp [runAll_nil_eq_next]
  | cons i is ih =>
    simp only [List.cons_append, runAll_cons_eq_next, ih]
    exact ⟨fun ⟨v, hi, u, his, hjs⟩ => ⟨u, ⟨v, hi, his⟩, hjs⟩,
      fun ⟨u, ⟨v, hi, his⟩, hjs⟩ => ⟨v, hi, u, his, hjs⟩⟩

/-- What each operation of a list keeps, a run of the list keeps. -/
theorem runAll_keeps {α : Type} (f : State → α) {is : List Instr} {s t : State}
    (hstep : ∀ i ∈ is, ∀ u v, exec i u = .next v → f v = f u) (h : runAll is s = .next t) :
    f t = f s := by
  induction is generalizing s with
  | nil => rw [runAll_nil_eq_next.1 h]
  | cons i is ih =>
    obtain ⟨u, hi, his⟩ := runAll_cons_eq_next.1 h
    rw [List.forall_mem_cons] at hstep
    obtain ⟨hhead, htail⟩ := hstep
    exact (ih htail his).trans (hhead s u hi)

/-! #### Which operations write `TIME`, `START[c]` and `WIDTH[c]` (R37) -/

theorem agentOf_eq_timeBase {i : Instr} : agentOf i = .timeBase ↔ i = .tick := by
  cases i <;> simp [agentOf]

theorem agentOf_eq_capture {c : Channel} {i : Instr} :
    agentOf i = .capture c ↔ i = .rise c ∨ i = .fall c ∨ i = .noedgeLow c ∨ i = .noedgeHigh c := by
  cases i <;> simp [agentOf]

/-- `TIME` counts the ticks, and no other operation but `RESET` writes it (R110). -/
theorem exec_time {i : Instr} {s t : State} (h : exec i s = .next t) (hreset : ∀ pins, i ≠ .reset pins) :
    t.time = s.time + BitVec.ofNat 32 ([i].count .tick) := by
  by_cases hi : i = .tick
  · subst hi
    rw [exec_tick.1 h]
    rfl
  · obtain ⟨htime, -⟩ := singleWriters i s t h hreset
    have hkeep : t.time = s.time := not_not.1 fun hne => hi (agentOf_eq_timeBase.1 (htime hne))
    simp [hkeep, hi]

/-- Of the operations other than `RESET`, `RISE c` alone writes `START[c]` and `FALL c` alone writes
`WIDTH[c]` (R111 to R113). -/
theorem exec_capture {i : Instr} {s t : State} (c : Channel) (h : exec i s = .next t)
    (hreset : ∀ pins, i ≠ .reset pins) :
    (i = .rise c ∨ t.start.get c = s.start.get c) ∧ (i = .fall c ∨ t.width.get c = s.width.get c) := by
  by_cases hc : agentOf i = .capture c
  · obtain rfl | rfl | rfl | rfl := agentOf_eq_capture.1 hc
    · obtain ⟨-, rfl⟩ := exec_rise.1 h; exact ⟨.inl rfl, .inr rfl⟩
    · obtain ⟨-, rfl⟩ := exec_fall.1 h; exact ⟨.inr rfl, .inl rfl⟩
    · obtain rfl := exec_noedgeLow.1 h; exact ⟨.inr rfl, .inr rfl⟩
    · obtain rfl := exec_noedgeHigh.1 h; exact ⟨.inr rfl, .inr rfl⟩
  · obtain ⟨-, hcapture, -⟩ := singleWriters i s t h hreset
    have hkeep := mt (hcapture c) hc
    simp only [not_or, not_not] at hkeep
    obtain ⟨-, hstart, hwidth⟩ := hkeep
    exact ⟨.inr hstart, .inr hwidth⟩

/-- A run without `RESET` advances `TIME` by its ticks, modulo 2^32 (R110). -/
theorem runAll_time {is : List Instr} {s t : State} (hreset : ∀ i ∈ is, ∀ pins, i ≠ .reset pins)
    (h : runAll is s = .next t) : t.time = s.time + BitVec.ofNat 32 (is.count .tick) := by
  induction is generalizing s with
  | nil => simp [runAll_nil_eq_next.1 h]
  | cons i is ih =>
    obtain ⟨u, hi, his⟩ := runAll_cons_eq_next.1 h
    rw [List.forall_mem_cons] at hreset
    obtain ⟨hhead, htail⟩ := hreset
    calc t.time
        = u.time + BitVec.ofNat 32 (is.count .tick) := ih htail his
      _ = s.time + BitVec.ofNat 32 ([i].count .tick) + BitVec.ofNat 32 (is.count .tick) := by
          rw [exec_time hi hhead]
      _ = s.time + BitVec.ofNat 32 ((i :: is).count .tick) := by
          rw [BitVec.add_assoc, ← BitVec.ofNat_add, ← List.count_append, List.singleton_append]

theorem ne_rise_of_untouched {c : Channel} {i : Instr} (h : touchesChannel c i = false) : i ≠ .rise c := by
  rintro rfl; simp [touchesChannel] at h

theorem ne_reset_of_untouched {c : Channel} {i : Instr} (h : touchesChannel c i = false)
    (pins : PerChannel Bool) : i ≠ .reset pins := by
  rintro rfl; simp [touchesChannel] at h

/-! #### The single operations (R110 to R114) -/

/-- Settles O12. -/
theorem tickCountsModulo : Obligations.TickCountsModulo := by
  unfold Obligations.TickCountsModulo
  exact fun s => ⟨_, exec_tick.2 rfl, word_toNat_succ s.time, rfl⟩

/-- Settles O13: the rising edge writes element `c` of two arrays. -/
theorem riseStampsTheEdge : Obligations.RiseStampsTheEdge := by
  unfold Obligations.RiseStampsTheEdge
  exact fun c s hlow => ⟨_, exec_rise.2 ⟨hlow, rfl⟩, PerChannel.get_set_same .., PerChannel.get_set_same ..,
    fun _ hd => ⟨PerChannel.get_set_other _ _ hd, PerChannel.get_set_other _ _ hd⟩, rfl⟩

/-- Settles O14: the falling edge writes element `c` of two arrays, the width as the modular difference. -/
theorem fallPublishesTheWidth : Obligations.FallPublishesTheWidth := by
  unfold Obligations.FallPublishesTheWidth
  intro c s hhigh
  refine ⟨_, exec_fall.2 ⟨hhigh, rfl⟩, PerChannel.get_set_same .., ?width,
    fun _ hd => ⟨PerChannel.get_set_other _ _ hd, PerChannel.get_set_other _ _ hd⟩, rfl⟩
  case width => rw [PerChannel.get_set_same, word_toNat_sub]

/-- Settles O15. -/
theorem noedgeChangesNothing : Obligations.NoedgeChangesNothing := by
  unfold Obligations.NoedgeChangesNothing
  exact fun _ _ => ⟨exec_noedgeLow.2 rfl, exec_noedgeHigh.2 rfl⟩

/-- Settles O16. -/
theorem rdwReadsTheWidth : Obligations.RdwReadsTheWidth := by
  unfold Obligations.RdwReadsTheWidth
  exact fun _ _ => ⟨_, exec_rdw.2 rfl, rfl, rfl⟩

/-! #### Whole runs (R115, R117) -/

/-- Settles O17: between the edges `START[c]` keeps the time of the rising edge while `TIME` advances by the
ticks, so the modular difference is their count. -/
theorem pulseWidthIsTheTickCount : Obligations.PulseWidthIsTheTickCount := by
  unfold Obligations.PulseWidthIsTheTickCount
  intro c s t is _ huntouched hticks h
  rw [List.cons_append, runAll_cons_eq_next] at h
  obtain ⟨u, hrise, hrun⟩ := h
  obtain ⟨v, hbetween, hlast⟩ := runAll_append_eq_next.1 hrun
  obtain ⟨w, hfall, hnil⟩ := runAll_cons_eq_next.1 hlast
  obtain rfl := runAll_nil_eq_next.1 hnil
  obtain ⟨-, rfl⟩ := exec_fall.1 hfall
  obtain ⟨-, rfl⟩ := exec_rise.1 hrise
  have hreset := fun i hi => ne_reset_of_untouched (huntouched i hi)
  have htime := runAll_time hreset hbetween
  have hstart : v.start.get c = s.time := by
    rw [runAll_keeps (·.start.get c) (fun i hi x y he => ?keeps) hbetween, PerChannel.get_set_same]
    case keeps =>
      obtain ⟨hstart, -⟩ := exec_capture c he (hreset i hi)
      exact hstart.resolve_left (ne_rise_of_untouched (huntouched i hi))
  rw [PerChannel.get_set_same, htime, hstart, add_sub_cancel_left, BitVec.toNat_ofNat]
  exact Nat.mod_eq_of_lt hticks

/-- Settles O20: each operation of the run keeps the width, so the run does. -/
theorem widthFreezesWithoutFall : Obligations.WidthFreezesWithoutFall := by
  unfold Obligations.WidthFreezesWithoutFall
  intro c is s t hother h
  refine runAll_keeps (·.width.get c) (fun i hi u v he => ?_) h
  obtain ⟨hfall, hreset⟩ := hother i hi
  obtain ⟨-, hwidth⟩ := exec_capture c he hreset
  exact hwidth.resolve_left hfall

end Sys2Proof.Machine

/-! ### The line port and the mailbox (41_message.md) -/

namespace Sys2Proof.Machine

open Sys2Proof

/-! #### The four line operations (R131 to R134) -/

/-- Settles O22. -/
theorem validLinesAreHeld : Obligations.ValidLinesAreHeld := by
  unfold Obligations.ValidLinesAreHeld
  exact fun _ hempty => ⟨exec_msgS.2 ⟨hempty, rfl⟩, exec_msgN.2 ⟨hempty, rfl⟩,
    fun _ => exec_msgD.2 ⟨hempty, rfl⟩⟩

/-- Settles O23: writing nothing into an empty mailbox leaves the state as it was. -/
theorem ignoredLineChangesNothing : Obligations.IgnoredLineChangesNothing := by
  unfold Obligations.IgnoredLineChangesNothing
  intro s hempty
  have hsame : s = { s with mbx := none } := by rw [← hempty]
  exact exec_msgIgnore.2 ⟨hempty, hsame⟩

/-! #### Which operations write the mailbox (R37) -/

/-- No operation touches the events lined up, and only the line port, a consumption and `RESET` write the
mailbox (R37, R42). -/
theorem exec_inputs_mbx {i : Instr} {s t : State} (h : exec i s = .next t) :
    t.inputs = s.inputs ∧
      (t.mbx = s.mbx ∨ agentOf i = .linePort ∨ i = .cycle ∨ i = .autoConsume ∨ ∃ pins, i = .reset pins) := by
  cases i with
  | rdw _ | noedgeLow _ | noedgeHigh _ => cases h; exact ⟨rfl, .inl rfl⟩
  | tick => obtain rfl := exec_tick.1 h; exact ⟨rfl, .inl rfl⟩
  | mapStop => obtain ⟨-, rfl⟩ := exec_mapStop.1 h; exact ⟨rfl, .inl rfl⟩
  | mapZero => obtain ⟨-, rfl⟩ := exec_mapZero.1 h; exact ⟨rfl, .inl rfl⟩
  | rise _ | fall _ | selAuto _ | selManual _ | autoHold | mapPropPos _ | mapPropNeg _ | mapLockPos _
  | mapLockNeg _ | mapRevPos _ | mapRevNeg _ | mapFullrevPos _ | mapFullrevNeg _ | clsReversing
  | clsNeutral | blinkToggle _ _ =>
    obtain ⟨-, rfl⟩ := whenEnabled_eq_next.1 h
    exact ⟨rfl, .inl rfl⟩
  | manual _ _ => obtain ⟨-, rfl⟩ := exec_manual.1 h; exact ⟨manual_inputs .., .inl (manual_mbx ..)⟩
  | clsTurnLeft _ => obtain ⟨-, rfl⟩ := exec_clsTurnLeft.1 h; exact ⟨turn_inputs .., .inl (turn_mbx ..)⟩
  | clsTurnRight _ => obtain ⟨-, rfl⟩ := exec_clsTurnRight.1 h; exact ⟨turn_inputs .., .inl (turn_mbx ..)⟩
  | msgS | msgN | msgD _ | msgIgnore =>
    obtain ⟨-, _, rfl⟩ := exec_agentWrites h
    exact ⟨rfl, .inr (.inl rfl)⟩
  | cycle => obtain rfl := exec_cycle.1 h; simp
  | autoConsume => obtain ⟨_, -, -, rfl⟩ := exec_autoConsume.1 h; simp
  | reset _ => obtain rfl := exec_reset.1 h; simp

/-- A cycle empties the mailbox in autonomous mode and leaves it alone in manual mode (R154, R155). -/
theorem cycle_mbx {s t : State} (h : exec .cycle s = .next t) :
    t.mbx = if (s.width.get .mode).toNat ≤ 1500 then s.mbx else none := by
  rw [exec_cycle.1 h, indicate_mbx, arbitrate_mbx]

/-- A line operation is taken only with the mailbox empty (R130). -/
theorem linePort_mbx {i : Instr} {s t : State} (hi : agentOf i = .linePort) (h : exec i s = .next t) :
    s.mbx = none := by
  have hw := exec_agentWrites h
  rw [hi] at hw
  obtain ⟨hempty, -⟩ := hw
  exact hempty

/-- Settles O25, by the operations that write the mailbox. -/
theorem heldMessageLeavesOnlyByConsumption : Obligations.HeldMessageLeavesOnlyByConsumption := by
  unfold Obligations.HeldMessageLeavesOnlyByConsumption
  intro i s t m hheld h
  obtain ⟨-, hkeep | hline | rfl | rfl | ⟨pins, rfl⟩⟩ := exec_inputs_mbx h
  · exact .inl (hkeep.trans hheld)
  · simp [linePort_mbx hline h] at hheld
  · have hmbx := cycle_mbx h
    split at hmbx
    · exact .inl (hmbx.trans hheld)
    · next hauto => exact .inr ⟨hmbx, .inl ⟨.inl rfl, not_le.1 hauto⟩⟩
  · obtain ⟨_, -, hauto, rfl⟩ := exec_autoConsume.1 h
    exact .inr ⟨consume_mbx .., .inl ⟨.inr rfl, mode_eq_autonomous.1 hauto⟩⟩
  · obtain rfl := exec_reset.1 h
    exact .inr ⟨rfl, .inr ⟨pins, rfl⟩⟩

/-! #### A line is parsed at delivery, or waits (R130, R250) -/

/-- Taking an event changes neither the pins nor the mailbox, so it leaves what can happen as it was (R11). -/
@[simp] theorem canHappen_afterFetch (s : State) (e : Input) : s.afterFetch.canHappen e = s.canHappen e := by
  cases e with
  | tick | cycleGo | rst _ | rdw _ => rfl
  | pin _ => simp only [State.canHappen, afterFetch_pin]
  | line _ => simp only [State.canHappen, State.hasRoom, afterFetch_mbx]

/-- Every step is taken, by some operation once its event has been taken (R11, R210). -/
theorem step_taken (s : State) : ∃ i t, step s = .next t ∧ exec i s.afterFetch = .next t := by
  have hcan : s.afterFetch.canHappen s.nextInput = true := by simp [canHappen_nextInput]
  obtain ⟨i, hdec, henabled⟩ := canHappen_decodes_enabled hcan
  obtain ⟨t, ht⟩ := (exec_taken_iff_enabled i s.afterFetch).2 henabled
  exact ⟨i, t, (step_of_decode hdec).trans ht, ht⟩

/-- With the mailbox empty, a line lined up first is taken and its operation run (R130). -/
theorem step_line {s : State} {b : List Byte} {rest : List Input} (h : s.inputs = .line b :: rest)
    (hempty : s.mbx = none) : step s = exec (decodeLine b) { s with inputs := rest } :=
  step_cons h (hasRoom_iff.2 hempty) rfl

/-- An event lined up first that cannot happen yet stays first in line (R250). -/
theorem afterFetch_inputs_waiting {s : State} {e : Input} {rest : List Input} (h : s.inputs = e :: rest)
    (he : s.canHappen e = false) : ∃ more, s.afterFetch.inputs = e :: more := by
  unfold State.afterFetch
  split
  · exact ⟨rest.eraseP s.canHappen, by simp [h, he]⟩
  · exact ⟨rest, h⟩

/-- Settles O24: with room the line is taken and its operation run; without room it cannot happen, and
neither the fetch nor the operation run instead takes it out of the line. -/
theorem lineStepParsesOrWaits : Obligations.LineStepParsesOrWaits := by
  unfold Obligations.LineStepParsesOrWaits
  intro s b rest hin
  refine ⟨fun hempty => ?taken, fun hheld => ?waits⟩
  case taken =>
    obtain ⟨hS, hN, hD⟩ := validLinesAreHeld { s with inputs := rest } hempty
    rw [step_line hin hempty]
    exact ⟨fun hb => hb ▸ hS, fun hb => hb ▸ hN, fun d hb => hb ▸ hD d,
      fun hb => hb ▸ ignoredLineChangesNothing { s with inputs := rest } hempty⟩
  case waits =>
    have hclosed : s.canHappen (.line b) = false := by simpa [← Bool.not_eq_true] using hheld
    obtain ⟨i, t, hstep, hexec⟩ := step_taken s
    obtain ⟨more, hwaits⟩ := afterFetch_inputs_waiting hin hclosed
    obtain ⟨hinputs, -⟩ := exec_inputs_mbx hexec
    exact ⟨t, more, hstep, hinputs.trans hwaits⟩

end Sys2Proof.Machine

/-! ### The control cycle and the mode arbitrator (42_arbitration.md) -/

namespace Sys2Proof.Machine

open Sys2Proof

/-! #### The sub-operations (R152 to R156) -/

/-- Settles O26. -/
theorem selectionCompletes : Obligations.SelectionCompletes := by
  unfold Obligations.SelectionCompletes
  exact fun _ _ => ⟨fun hauto => exec_selAuto.2 ⟨modeOf_eq_autonomous.2 hauto, rfl⟩,
    fun hmanual => exec_selManual.2 ⟨modeOf_eq_manual.2 hmanual, rfl⟩⟩

/-- Settles O27. -/
theorem manualIssuesTheClampedPair : Obligations.ManualIssuesTheClampedPair := by
  unfold Obligations.ManualIssuesTheClampedPair
  intro st h s hmanual
  obtain ⟨hsteer, hspeed⟩ := manual_cmd st h s
  exact ⟨_, hsteer, hspeed, exec_manual.2 ⟨mode_eq_manual.2 hmanual, (manual_eq st h s).symm⟩⟩

/-- From `s` to `t` the map's result `r` is issued once where it is a command, and the command stays where it
is none (R155, R157, R170). -/
def IssuesResult (r : Option MotionCommand) (s t : State) : Prop :=
  (∀ c, r = some c → t.cmd = c ∧ t.trace = s.trace ++ [c]) ∧ (r = none → HoldsCommand s t)

theorem issuesResult_consume (m : Message) (s : State) : IssuesResult (mapMessage m) s (s.consume m) := by
  rw [consume_eq]
  cases mapMessage m with
  | some c => exact ⟨fun _ hc => by cases hc; exact ⟨rfl, rfl⟩, nofun⟩
  | none => exact ⟨nofun, fun _ => ⟨rfl, rfl⟩⟩

/-- A consumption writes only the mailbox, the command and the trace, and the model's record (R155, log 6). -/
theorem consume_frame (m : Message) (s : State) :
    s.consume m = { s with mbx := (s.consume m).mbx, cmd := (s.consume m).cmd,
                           trace := (s.consume m).trace, results := (s.consume m).results } := by
  rw [consume_eq]
  split <;> rfl

/-- Settles O28. -/
theorem consumeIssuesWhatTheMapGives : Obligations.ConsumeIssuesWhatTheMapGives := by
  unfold Obligations.ConsumeIssuesWhatTheMapGives
  intro m s hauto hheld
  obtain ⟨hcommand, hnone⟩ := issuesResult_consume m s
  exact ⟨_, exec_autoConsume.2 ⟨m, hheld, mode_eq_autonomous.2 hauto, rfl⟩, consume_mbx m s, hcommand, hnone,
    consume_frame m s⟩

/-- Settles O29. -/
theorem holdKeepsTheCommand : Obligations.HoldKeepsTheCommand := by
  unfold Obligations.HoldKeepsTheCommand
  exact fun _ hauto hempty => exec_autoHold.2 ⟨mode_eq_autonomous.2 hauto, hempty, rfl⟩

/-! #### The phases of a cycle are sub-operations (R150) -/

/-- Phase 2 of a cycle in manual mode (R153, R154). -/
theorem arbitrate_of_manual {s : State} (hmanual : (s.width.get .mode).toNat ≤ 1500) :
    s.arbitrate s.snapshot =
      (s.hand (.mode .manual)).manual (s.width.get .steer) (s.width.get .throttle) := by
  rw [arbitrate_eq, if_pos hmanual]

/-- Phase 2 of a cycle in autonomous mode with a message held (R152, R155). -/
theorem arbitrate_of_held {s : State} {m : Message} (hauto : 1500 < (s.width.get .mode).toNat)
    (hheld : s.mbx = some m) : s.arbitrate s.snapshot = (s.hand (.mode .autonomous)).consume m := by
  rw [arbitrate_eq, if_neg (not_le.2 hauto), hheld]

/-- Phase 2 of a cycle in autonomous mode with the mailbox empty (R152, R156). -/
theorem arbitrate_of_empty {s : State} (hauto : 1500 < (s.width.get .mode).toNat)
    (hempty : s.mbx = none) : s.arbitrate s.snapshot = s.hand (.mode .autonomous) := by
  rw [arbitrate_eq, if_neg (not_le.2 hauto), hempty]

/-- Phase 2 of a cycle is the selection of the mode, then that mode's path (R150, R152 to R156). -/
theorem arbitrate_is_selection_then_path (s : State) :
    ∃ s1,
      exec (if 1500 < (s.width.get .mode).toNat then .selAuto (s.width.get .mode)
        else .selManual (s.width.get .mode)) s = .next s1 ∧
      exec (if 1500 < (s.width.get .mode).toNat then
          (if s.mbx = none then .autoHold else .autoConsume)
        else .manual (s.width.get .steer) (s.width.get .throttle)) s1 = .next (s.arbitrate s.snapshot) := by
  by_cases hauto : 1500 < (s.width.get .mode).toNat
  · simp only [if_pos hauto]
    refine ⟨_, exec_selAuto.2 ⟨modeOf_eq_autonomous.2 hauto, rfl⟩, ?_⟩
    cases hmbx : s.mbx with
    | none => exact exec_autoHold.2 ⟨mode_eq_autonomous.2 hauto, hmbx, arbitrate_of_empty hauto hmbx⟩
    | some m =>
      exact exec_autoConsume.2 ⟨m, hmbx, mode_eq_autonomous.2 hauto, arbitrate_of_held hauto hmbx⟩
  · have hmanual := not_lt.1 hauto
    simp only [if_neg hauto]
    exact ⟨_, exec_selManual.2 ⟨modeOf_eq_manual.2 hmanual, rfl⟩,
      exec_manual.2 ⟨mode_eq_manual.2 hmanual, arbitrate_of_manual hmanual⟩⟩

/-- The indicator phase is the class operation of the held command (R190, R191). -/
theorem indicate_is_class_operation (w : Word) (s : State) :
    exec (if s.cmd.speed.toNat < 1500 then .clsReversing
      else if s.cmd.steer.toNat < 1450 then .clsTurnLeft w
      else if 1550 < s.cmd.steer.toNat then .clsTurnRight w
      else .clsNeutral) s = .next (s.indicate w) := by
  unfold State.indicate
  split_ifs with hrev hleft hright
  · have hclass := classOf_eq_reversing.2 hrev
    rw [hclass]
    exact exec_clsReversing.2 ⟨hclass, rfl⟩
  · have hclass := classOf_eq_left.2 ⟨not_lt.1 hrev, hleft⟩
    rw [hclass]
    exact exec_clsTurnLeft.2 ⟨hclass, rfl⟩
  · have hclass := classOf_eq_right.2 ⟨not_lt.1 hrev, hright⟩
    rw [hclass]
    exact exec_clsTurnRight.2 ⟨hclass, rfl⟩
  · have hclass := classOf_eq_neutral.2 ⟨not_lt.1 hrev, not_lt.1 hleft, not_lt.1 hright⟩
    rw [hclass]
    exact exec_clsNeutral.2 ⟨hclass, rfl⟩

/-- Settles O30, phase by phase. -/
theorem cycleIsItsSubOperations : Obligations.CycleIsItsSubOperations := by
  unfold Obligations.CycleIsItsSubOperations
  intro s
  obtain ⟨s1, hselect, hpath⟩ := arbitrate_is_selection_then_path s
  exact ⟨s1, _, _, hselect, hpath, indicate_is_class_operation s.time _, exec_cycle.2 rfl⟩

/-! #### What a whole cycle does to the command (R154 to R157, R160) -/

/-- A cycle writes only the mailbox, the command, the trace and the indicator registers, and the model's record
(R37, log 6). -/
theorem cycle_frame {s t : State} (h : exec .cycle s = .next t) :
    t = { s with mbx := t.mbx, cmd := t.cmd, trace := t.trace, results := t.results,
                 blink := t.blink, tgl := t.tgl, out := t.out } := by
  obtain ⟨htime, hpin, hstart, hwidth, -, -⟩ : ControlCycleWrites s t := exec_agentWrites h
  obtain ⟨hinputs, -⟩ := exec_inputs_mbx h
  have heventNo : t.eventNo = s.eventNo := by rw [exec_cycle.1 h, indicate_eventNo, arbitrate_eventNo]
  rw [← htime, ← hpin, ← hstart, ← hwidth, ← hinputs, ← heventNo]

/-- A manual cycle issues the clamped STEER and THROTTLE widths (R154, R157). -/
theorem cycle_manual_command {s t : State} (hmanual : (s.width.get .mode).toNat ≤ 1500)
    (h : exec .cycle s = .next t) :
    t.cmd = ⟨clampWidth (s.width.get .steer) 1000 2000, clampWidth (s.width.get .throttle) 1440 1560⟩ ∧
      t.trace = s.trace ++ [t.cmd] := by
  rw [exec_cycle.1 h, arbitrate_of_manual hmanual, indicate_cmd, indicate_trace]
  exact ⟨manual_cmd_eq .., manual_trace ..⟩

/-- An autonomous cycle issues what the held message maps to, if there is one and it maps to a command
(R155, R156). -/
theorem cycle_autonomous_command {s t : State} (hauto : 1500 < (s.width.get .mode).toNat)
    (h : exec .cycle s = .next t) : IssuesResult (s.mbx.bind mapMessage) s t := by
  rw [exec_cycle.1 h]
  unfold IssuesResult HoldsCommand
  rw [indicate_cmd, indicate_trace]
  cases hmbx : s.mbx with
  | some m =>
    rw [arbitrate_of_held hauto hmbx]
    exact issuesResult_consume m (s.hand (.mode .autonomous))
  | none =>
    rw [arbitrate_of_empty hauto hmbx]
    exact ⟨nofun, fun _ => ⟨rfl, rfl⟩⟩

/-- Settles O31. -/
theorem manualCycleCommand : Obligations.ManualCycleCommand := by
  unfold Obligations.ManualCycleCommand
  intro s hmanual
  obtain ⟨t, h⟩ : ∃ t, exec .cycle s = .next t := ⟨_, exec_cycle.2 rfl⟩
  obtain ⟨hcmd, htrace⟩ := cycle_manual_command hmanual h
  have hmbx : t.mbx = s.mbx := (cycle_mbx h).trans (if_pos hmanual)
  have hframe := cycle_frame h
  rw [hmbx] at hframe
  refine ⟨t, h, ?steer, ?speed, htrace, hframe⟩
  case steer => rw [hcmd]; exact clampWidth_toNat _ (by decide) (by decide)
  case speed => rw [hcmd]; exact clampWidth_toNat _ (by decide) (by decide)

/-- Settles O32. -/
theorem autonomousCycleCommand : Obligations.AutonomousCycleCommand := by
  unfold Obligations.AutonomousCycleCommand
  intro s hauto
  obtain ⟨t, h⟩ : ∃ t, exec .cycle s = .next t := ⟨_, exec_cycle.2 rfl⟩
  obtain ⟨hcommand, hnone⟩ := cycle_autonomous_command hauto h
  have hmbx : t.mbx = none := (cycle_mbx h).trans (if_neg (not_le.2 hauto))
  exact ⟨t, h, hmbx, hcommand, hnone, cycle_frame h⟩

/-- What does not read `TIME` is kept by any number of ticks (R110). -/
theorem runAll_replicate_tick_keeps {α : Type} (f : State → α) (hf : ∀ u v, f { u with time := v } = f u)
    {n : Nat} {s t : State} (h : runAll (List.replicate n .tick) s = .next t) : f t = f s := by
  refine runAll_keeps f (fun i hi u v hexec => ?_) h
  obtain rfl := List.eq_of_mem_replicate hi
  rw [exec_tick.1 hexec, hf]

/-- Settles O33: neither a cycle nor a tick writes a width, and a manual command is made of the widths
alone. -/
theorem manualPathIsIdempotent : Obligations.ManualPathIsIdempotent := by
  unfold Obligations.ManualPathIsIdempotent
  intro s t u n hmanual hfirst hrun
  obtain ⟨v, hticks, hlast⟩ := runAll_append_eq_next.1 hrun
  obtain ⟨w, hsecond, hnil⟩ := runAll_cons_eq_next.1 hlast
  obtain rfl := runAll_nil_eq_next.1 hnil
  have hcycle : ControlCycleWrites s t := exec_agentWrites hfirst
  have hwidth : v.width = s.width :=
    (runAll_replicate_tick_keeps State.width (fun _ _ => rfl) hticks).trans hcycle.width
  have htrace : v.trace = t.trace := runAll_replicate_tick_keeps State.trace (fun _ _ => rfl) hticks
  obtain ⟨hcmd, -⟩ := cycle_manual_command hmanual hfirst
  obtain ⟨hcmd', htrace'⟩ := cycle_manual_command (hwidth ▸ hmanual) hsecond
  have hsame : u.cmd = t.cmd := by rw [hcmd', hwidth, hcmd]
  exact ⟨hsame, by rw [htrace', htrace, hsame]⟩

end Sys2Proof.Machine

/-! ### The deviation mapper (43_mapper.md) -/

namespace Sys2Proof.Machine

open Sys2Proof

/-! #### The map by rows (R170) -/

/-- The result of the map's row for a bucket, at the deviation `d` (R171 to R180). -/
def rowResult (d : Int) : Bucket → Option MotionCommand
  | .stop => rowStop
  | .propPos => rowPropPos d
  | .propNeg => rowPropNeg d
  | .lockPos => rowLockPos
  | .lockNeg => rowLockNeg
  | .revPos => rowRevPos
  | .revNeg => rowRevNeg
  | .fullrevPos => rowFullrevPos
  | .fullrevNeg => rowFullrevNeg
  | .zero => rowZero

/-- The map gives a deviation its bucket's result. -/
theorem mapMessage_of_bucketOf {d : Int} {b : Bucket} (h : bucketOf (.dev d) = b) :
    mapMessage (.dev d) = rowResult d b := by
  simp only [mapMessage, h]
  cases b <;> rfl

/-- The operation of a deviation's bucket hands out that bucket's result, from any state. -/
theorem exec_bucket_instr {d : Int} {b : Bucket} (h : bucketOf (.dev d) = b) (s : State) :
    exec (b.instr d) s = .next (s.hand (.command (rowResult d b))) := by
  cases b with
  | stop => exact exec_mapStop.2 ⟨rfl, rfl⟩
  | propPos => exact exec_mapPropPos.2 ⟨h, rfl⟩
  | propNeg => exact exec_mapPropNeg.2 ⟨h, rfl⟩
  | lockPos => exact exec_mapLockPos.2 ⟨h, rfl⟩
  | lockNeg => exact exec_mapLockNeg.2 ⟨h, rfl⟩
  | revPos => exact exec_mapRevPos.2 ⟨h, rfl⟩
  | revNeg => exact exec_mapRevNeg.2 ⟨h, rfl⟩
  | fullrevPos => exact exec_mapFullrevPos.2 ⟨h, rfl⟩
  | fullrevNeg => exact exec_mapFullrevNeg.2 ⟨h, rfl⟩
  | zero => exact exec_mapZero.2 ⟨rfl, rfl⟩

/-! #### The bucket table (R171 to R180) -/

/-- Settles O36: in each range the deviation has that range's bucket. -/
theorem mapTable : Obligations.MapTable := by
  unfold Obligations.MapTable
  refine ⟨rfl, fun d => ⟨fun h => ⟨⟨propSteer d, 1560⟩, ?prop, propSteer_toNat d, rfl⟩,
    fun h0 h1 => ?lockPos, fun h0 h1 => ?lockNeg, fun h0 h1 => ?revPos, fun h0 h1 => ?revNeg,
    fun h => ?fullrevPos, fun h => ?fullrevNeg, fun h => ?zero⟩⟩
  case prop =>
    obtain hpos | hneg := h
    · exact mapMessage_of_bucketOf (b := .propPos) (bucketOf_dev_eq.2 hpos)
    · exact mapMessage_of_bucketOf (b := .propNeg) (bucketOf_dev_eq.2 hneg)
  case lockPos => exact mapMessage_of_bucketOf (b := .lockPos) (bucketOf_dev_eq.2 ⟨h0, h1⟩)
  case lockNeg => exact mapMessage_of_bucketOf (b := .lockNeg) (bucketOf_dev_eq.2 ⟨h0, h1⟩)
  case revPos => exact mapMessage_of_bucketOf (b := .revPos) (bucketOf_dev_eq.2 ⟨h0, h1⟩)
  case revNeg => exact mapMessage_of_bucketOf (b := .revNeg) (bucketOf_dev_eq.2 ⟨h0, h1⟩)
  case fullrevPos => exact mapMessage_of_bucketOf (b := .fullrevPos) (bucketOf_dev_eq.2 h)
  case fullrevNeg => exact mapMessage_of_bucketOf (b := .fullrevNeg) (bucketOf_dev_eq.2 h)
  case zero => exact mapMessage_of_bucketOf (b := .zero) (bucketOf_dev_eq.2 h)

/-- Settles O37: each row's range is its bucket's. -/
theorem mapForwardRowsComplete : Obligations.MapForwardRowsComplete := by
  unfold Obligations.MapForwardRowsComplete
  refine ⟨fun _ => exec_mapStop.2 ⟨rfl, rfl⟩, fun d s h0 h1 => ?propPos, fun d s h0 h1 => ?propNeg,
    fun d s h0 h1 => ?lockPos, fun d s h0 h1 => ?lockNeg⟩
  case propPos =>
    exact ⟨⟨propSteer d, 1560⟩, propSteer_toNat d, rfl,
      exec_bucket_instr (b := .propPos) (bucketOf_dev_eq.2 ⟨h0, h1⟩) s⟩
  case propNeg =>
    exact ⟨⟨propSteer d, 1560⟩, propSteer_toNat d, rfl,
      exec_bucket_instr (b := .propNeg) (bucketOf_dev_eq.2 ⟨h0, h1⟩) s⟩
  case lockPos => exact exec_bucket_instr (b := .lockPos) (bucketOf_dev_eq.2 ⟨h0, h1⟩) s
  case lockNeg => exact exec_bucket_instr (b := .lockNeg) (bucketOf_dev_eq.2 ⟨h0, h1⟩) s

/-- Settles O38: each row's range is its bucket's. -/
theorem mapReverseRowsComplete : Obligations.MapReverseRowsComplete := by
  unfold Obligations.MapReverseRowsComplete
  refine ⟨fun d s h0 h1 => ?revPos, fun d s h0 h1 => ?revNeg, fun d s h => ?fullrevPos,
    fun d s h => ?fullrevNeg, fun _ => exec_mapZero.2 ⟨rfl, rfl⟩⟩
  case revPos => exact exec_bucket_instr (b := .revPos) (bucketOf_dev_eq.2 ⟨h0, h1⟩) s
  case revNeg => exact exec_bucket_instr (b := .revNeg) (bucketOf_dev_eq.2 ⟨h0, h1⟩) s
  case fullrevPos => exact exec_bucket_instr (b := .fullrevPos) (bucketOf_dev_eq.2 h) s
  case fullrevNeg => exact exec_bucket_instr (b := .fullrevNeg) (bucketOf_dev_eq.2 h) s

/-! #### The map of the opposite deviation (R181) -/

/-- The bucket of the opposite deviations. -/
def mirrorBucket : Bucket → Bucket
  | .stop => .stop
  | .propPos => .propNeg
  | .propNeg => .propPos
  | .lockPos => .lockNeg
  | .lockNeg => .lockPos
  | .revPos => .revNeg
  | .revNeg => .revPos
  | .fullrevPos => .fullrevNeg
  | .fullrevNeg => .fullrevPos
  | .zero => .zero

/-- The boundaries of the buckets lie symmetrically about 0 (R87). -/
theorem bucketOf_dev_neg (d : Int) : bucketOf (.dev (-d)) = mirrorBucket (bucketOf (.dev d)) := by
  cases hrow : bucketOf (.dev d) with
  | stop => exact (bucketOf_dev_eq.1 hrow).elim
  | _ =>
    rw [bucketOf_dev_eq] at hrow ⊢
    dsimp only [mirrorBucket] at hrow ⊢
    omega

/-- The proportional law is odd about 1500, its clamp too (R172, R173). -/
theorem propSteer_add_propSteer_neg (d : Int) : (propSteer d).toNat + (propSteer (-d)).toNat = 3000 := by
  have hpos := propSteer_toNat d
  have hneg := propSteer_toNat (-d)
  omega

/-- The rows of a bucket and of its mirror give commands that mirror each other. -/
theorem rowResult_mirrorBucket {d : Int} {b : Bucket} {c : MotionCommand} (h : rowResult d b = some c) :
    ∃ c', rowResult (-d) (mirrorBucket b) = some c' ∧
      c.steer.toNat + c'.steer.toNat = 3000 ∧ c'.speed = c.speed := by
  cases b with
  | propPos | propNeg => cases h; exact ⟨_, rfl, propSteer_add_propSteer_neg d, rfl⟩
  | _ => cases h <;> exact ⟨_, rfl, rfl, rfl⟩

/-- Settles O39: the opposite deviation has the mirrored bucket, whose command is the mirrored one. -/
theorem mapIsMirrored : Obligations.MapIsMirrored := by
  unfold Obligations.MapIsMirrored
  intro d c h
  rw [mapMessage_of_bucketOf rfl] at h
  rw [mapMessage_of_bucketOf (bucketOf_dev_neg d)]
  exact rowResult_mirrorBucket h

/-! #### The values of the map (R181) -/

/-- Only the deviations -2 to 2 are not saturated (R172, R173, R181). -/
theorem propSteer_values {d : Int} (h : d ≠ 0) :
    (propSteer d).toNat ∈ [1400, 1420, 1460, 1540, 1580, 1600] := by
  have hlaw := propSteer_toNat d
  simp only [List.mem_cons, List.not_mem_nil, or_false]
  obtain hd | rfl | rfl | rfl | rfl | hd : d ≤ -3 ∨ d = -2 ∨ d = -1 ∨ d = 1 ∨ d = 2 ∨ 3 ≤ d := by omega
  all_goals omega

/-- Settles O40: the proportional rows by their law, every other row by its one command. -/
theorem mapValues : Obligations.MapValues := by
  unfold Obligations.MapValues
  intro m c h
  cases m with
  | stop => cases h; decide
  | dev d =>
    rw [mapMessage_of_bucketOf rfl] at h
    cases hrow : bucketOf (.dev d) with rw [hrow] at h
    | propPos | propNeg =>
      cases h
      have hzero : d ≠ 0 := by rintro rfl; cases hrow
      have hsub : [1400, 1420, 1460, 1540, 1580, 1600] ⊆
        [1000, 1200, 1400, 1420, 1460, 1500, 1540, 1580, 1600, 1800, 2000] := by decide
      have hspeed : Config.propSpeed.toNat ∈ [1430, 1435, 1440, 1550, 1560] := by decide
      exact ⟨hsub (propSteer_values hzero), hspeed⟩
    | zero => cases h
    | _ => cases h; decide

end Sys2Proof.Machine

/-! ### The indicator controller (44_indicator.md) -/

namespace Sys2Proof.Machine

open Sys2Proof

/-! #### The side that blinks, and the blink timer (R28, R196, R197) -/

/-- The blink flags of a turn: set on its side, clear on the other (R193, R194). -/
def blinkingOnly (side : Side) : PerSide Bool := PerSide.set ⟨false, false⟩ side true

theorem blinkingOnly_get {side d : Side} : (blinkingOnly side).get d = true ↔ side = d := by
  cases side <;> cases d <;> decide

theorem set_other_false_set_true (x : PerSide Bool) (side : Side) :
    (x.set side.other false).set side true = blinkingOnly side := by
  cases side <;> rfl

theorem set_other_false_of_get {x : PerSide Bool} {side : Side} (h : x.get side = true) :
    x.set side.other false = blinkingOnly side := by
  cases side with
  | left => exact congrArg (PerSide.mk · false) h
  | right => exact congrArg (PerSide.mk false ·) h

/-- A toggle is due when 200000 ticks have elapsed modulo 2^32 (R196, R197). -/
theorem toggleDue_iff_elapsed {t tgl : Word} :
    toggleDue t tgl = true ↔ 200000 ≤ (4294967296 + t.toNat - tgl.toNat) % 4294967296 := by
  rw [toggleDue_iff, word_toNat_sub]

/-! #### The three things a turn class does (R193, R194) -/

section Turn

variable (side : Side) (s : State) {w : Word}

/-- Entry: the side's level stays and its interval begins. -/
theorem turn_of_entry (h : s.blink.get side = false) :
    s.turn side w = { s with out := s.out.set side.other false, blink := blinkingOnly side,
                             tgl := s.tgl.set side w } := by
  rw [turn_eq, h, ← set_other_false_set_true s.blink]

/-- A blinking side that is due is toggled. -/
theorem turn_of_due (h : s.blink.get side = true)
    (hdue : 200000 ≤ (4294967296 + w.toNat - (s.tgl.get side).toNat) % 4294967296) :
    s.turn side w = { s with out := (s.out.set side.other false).set side (!s.out.get side),
                             blink := blinkingOnly side, tgl := s.tgl.set side w } := by
  rw [turn_eq, h, toggleDue_iff_elapsed.2 hdue, ← set_other_false_of_get h]

/-- A blinking side that is not due is left alone. -/
theorem turn_of_waiting (h : s.blink.get side = true)
    (hwait : (4294967296 + w.toNat - (s.tgl.get side).toNat) % 4294967296 < 200000) :
    s.turn side w = { s with out := s.out.set side.other false, blink := blinkingOnly side } := by
  have hdue : toggleDue w (s.tgl.get side) = false :=
    Bool.eq_false_iff.2 (mt toggleDue_iff_elapsed.1 (not_le.2 hwait))
  rw [turn_eq, h, hdue, ← set_other_false_of_get h]

end Turn

/-- Every way through a turn class leaves its side alone blinking. -/
theorem turn_blink (side : Side) (w : Word) (s : State) : (s.turn side w).blink = blinkingOnly side := by
  rw [turn_eq]
  split
  · exact set_other_false_set_true _ _
  · next h _ => exact set_other_false_of_get h
  · next h _ => exact set_other_false_of_get h

/-- Every way through a turn class darkens the other side. -/
theorem turn_out_other (side : Side) (w : Word) (s : State) :
    (s.turn side w).out.get side.other = false := by
  rw [turn_eq]
  cases side <;> split <;> rfl

/-! #### The class operations (R191 to R197) -/

/-- Settles O11, by the range that defines each class. -/
theorem classSelection : Obligations.ClassSelection := by
  unfold Obligations.ClassSelection
  intro cmd t
  simp only [decodeSelector]
  refine ⟨fun hrev => ?_, fun hspeed hsteer => ?_, fun hspeed hsteer => ?_, fun hspeed hlow hhigh => ?_⟩
  · rw [classOf_eq_reversing.2 hrev]
  · rw [classOf_eq_left.2 ⟨hspeed, hsteer⟩]
  · rw [classOf_eq_right.2 ⟨hspeed, hsteer⟩]
  · rw [classOf_eq_neutral.2 ⟨hspeed, hlow, hhigh⟩]

/-- Settles O41. -/
theorem reversingIsSolid : Obligations.ReversingIsSolid := by
  unfold Obligations.ReversingIsSolid
  exact fun s hrev => exec_clsReversing.2 ⟨classOf_eq_reversing.2 hrev, (steady_eq true s).symm⟩

/-- Settles O42. -/
theorem neutralIsDark : Obligations.NeutralIsDark := by
  unfold Obligations.NeutralIsDark
  exact fun s hspeed hlow hhigh =>
    exec_clsNeutral.2 ⟨classOf_eq_neutral.2 ⟨hspeed, hlow, hhigh⟩, (steady_eq false s).symm⟩

/-- Settles O43: entry, a due toggle and waiting, on the left. -/
theorem turnLeftBlinks : Obligations.TurnLeftBlinks := by
  unfold Obligations.TurnLeftBlinks
  intro t s hspeed hsteer
  have hclass := classOf_eq_left.2 ⟨hspeed, hsteer⟩
  exact ⟨fun hentry => exec_clsTurnLeft.2 ⟨hclass, (turn_of_entry .left s hentry).symm⟩,
    fun hblink hdue => exec_clsTurnLeft.2 ⟨hclass, (turn_of_due .left s hblink hdue).symm⟩,
    fun hblink hwait => exec_clsTurnLeft.2 ⟨hclass, (turn_of_waiting .left s hblink hwait).symm⟩⟩

/-- Settles O44: entry, a due toggle and waiting, on the right. -/
theorem turnRightBlinks : Obligations.TurnRightBlinks := by
  unfold Obligations.TurnRightBlinks
  intro t s hspeed hsteer
  have hclass := classOf_eq_right.2 ⟨hspeed, hsteer⟩
  exact ⟨fun hentry => exec_clsTurnRight.2 ⟨hclass, (turn_of_entry .right s hentry).symm⟩,
    fun hblink hdue => exec_clsTurnRight.2 ⟨hclass, (turn_of_due .right s hblink hdue).symm⟩,
    fun hblink hwait => exec_clsTurnRight.2 ⟨hclass, (turn_of_waiting .right s hblink hwait).symm⟩⟩

/-- Settles O45. -/
theorem blinkToggleCompletes : Obligations.BlinkToggleCompletes := by
  unfold Obligations.BlinkToggleCompletes
  intro t s hspeed
  constructor
  · intro hsteer hblink hdue
    exact exec_blinkToggle.2 ⟨classOf_eq_left.2 ⟨hspeed, hsteer⟩, hblink, toggleDue_iff_elapsed.2 hdue,
      (toggle_eq .left t s).symm⟩
  · intro hsteer hblink hdue
    exact exec_blinkToggle.2 ⟨classOf_eq_right.2 ⟨hspeed, hsteer⟩, hblink, toggleDue_iff_elapsed.2 hdue,
      (toggle_eq .right t s).symm⟩

/-! #### The table of the classes (R199) -/

/-- What the outputs and blink flags show in each class (R199), the two turns as one case. -/
def ShowsClass (s : State) : IndClass → Prop
  | .reversing => s.out = ⟨true, true⟩ ∧ s.blink = ⟨false, false⟩
  | .turn side => s.out.get side.other = false ∧ s.blink = blinkingOnly side
  | .neutral => s.out = ⟨false, false⟩ ∧ s.blink = ⟨false, false⟩

/-- The table by ranges of the command is the table by classes. -/
theorem indicatorTable_iff_showsClass {s : State} : IndicatorTable s ↔ ShowsClass s (classOf s.cmd) := by
  unfold IndicatorTable
  split_ifs with hrev hleft hright
  · rw [classOf_eq_reversing.2 hrev]; rfl
  · rw [classOf_eq_left.2 ⟨not_lt.1 hrev, hleft⟩]; rfl
  · rw [classOf_eq_right.2 ⟨not_lt.1 hrev, hright⟩]; rfl
  · rw [classOf_eq_neutral.2 ⟨not_lt.1 hrev, not_lt.1 hleft, not_lt.1 hright⟩]; rfl

/-- A side blinks only in its own turn class. -/
theorem ShowsClass.eq_turn_of_blink {s : State} {c : IndClass} {side : Side} (h : ShowsClass s c)
    (hblink : s.blink.get side = true) : c = .turn side := by
  cases c with
  | turn d =>
    obtain ⟨-, hflags⟩ := h
    rw [hflags] at hblink
    rw [blinkingOnly_get.1 hblink]
  | reversing | neutral =>
    obtain ⟨-, hflags⟩ := h
    rw [hflags] at hblink
    cases side <;> cases hblink

/-- Phase 3 of a cycle shows the class of the command it finds (R190, R199). -/
theorem indicate_showsClass (w : Word) (s : State) : ShowsClass (s.indicate w) (classOf s.cmd) := by
  unfold State.indicate
  cases classOf s.cmd with
  | reversing => exact ⟨rfl, rfl⟩
  | turn side => exact ⟨turn_out_other side w s, turn_blink side w s⟩
  | neutral => exact ⟨rfl, rfl⟩

theorem indicate_of_turn {w : Word} {s : State} {side : Side} (h : classOf s.cmd = .turn side) :
    s.indicate w = s.turn side w := by
  unfold State.indicate
  rw [h]

/-! #### Whole cycles (R199, R200) -/

/-- A cycle ends in its indicator phase, so it shows the class of its command (R190). -/
theorem cycle_indicatorTable {s t : State} (h : exec .cycle s = .next t) : IndicatorTable t := by
  rw [exec_cycle.1 h, indicatorTable_iff_showsClass, indicate_cmd]
  exact indicate_showsClass _ _

/-- Settles O47. -/
theorem everyCycleShowsItsClass : Obligations.EveryCycleShowsItsClass := by
  unfold Obligations.EveryCycleShowsItsClass
  intro s
  obtain ⟨t, h⟩ : ∃ t, exec .cycle s = .next t := ⟨_, exec_cycle.2 rfl⟩
  exact ⟨t, h, cycle_indicatorTable h⟩

/-- A cycle after which a side blinks has run that side's turn class. -/
theorem cycle_eq_turn_of_blink {s t : State} {side : Side} (h : exec .cycle s = .next t)
    (hblink : t.blink.get side = true) : t = (s.arbitrate s.snapshot).turn side s.time := by
  obtain rfl := exec_cycle.1 h
  exact indicate_of_turn ((indicate_showsClass _ _).eq_turn_of_blink hblink)

/-- Settles O46: the cycle runs the side's turn class on the registers it found, and that class toggles a
blinking side or leaves it as the timer says. -/
theorem sustainedTurnTogglesAtTheInterval : Obligations.SustainedTurnTogglesAtTheInterval := by
  unfold Obligations.SustainedTurnTogglesAtTheInterval
  intro side s t hbefore h hafter
  have ht := cycle_eq_turn_of_blink h hafter
  have hother : t.out.get side.other = false := ht ▸ turn_out_other side _ _
  rw [← arbitrate_blink] at hbefore
  by_cases hdue : 200000 ≤ (4294967296 + s.time.toNat - (s.tgl.get side).toNat) % 4294967296
  · rw [turn_of_due side _ hbefore (by rwa [arbitrate_tgl])] at ht
    have hout : t.out.get side = !s.out.get side := by simp [ht]
    have htgl : t.tgl.get side = s.time := by simp [ht]
    simp [hout, htgl, hdue, hother]
  · rw [turn_of_waiting side _ hbefore (by rw [arbitrate_tgl]; exact not_le.1 hdue)] at ht
    have hout : t.out.get side = s.out.get side := by simp [ht]
    have htgl : t.tgl.get side = s.tgl.get side := by simp [ht]
    simp [hout, htgl, hdue, hother]

/-! #### The invariant along steps (R28, R39) -/

/-- Of the control cycle's operations the environment brings `CYCLE` alone; its sub-operations are no events
(R80, R89). -/
theorem decodeInput_agentOf {e : Input} {i : Instr} (h : decodeInput e = .ok i) :
    i = .cycle ∨ agentOf i ≠ .controlCycle := by
  cases e with
  | cycleGo => cases h; exact .inl rfl
  | tick | rst _ => cases h; exact .inr nofun
  | rdw sel =>
    simp only [decodeInput, decodeRdw] at h
    split at h <;> cases h
    exact .inr nofun
  | pin code =>
    simp only [decodeInput] at h
    cases hc : Channel.ofIndex (code.extractLsb' 2 3) with
    | none => rw [decodePin_of_noChannel hc] at h; cases h
    | some c =>
      rw [decodePin_of_channel hc] at h
      cases h
      right
      cases code.getLsbD 1 <;> cases code.getLsbD 0 <;> exact nofun
  | line b =>
    cases h
    right
    obtain hi | hi | ⟨_, hi⟩ | hi := decodeTrimmed_eq (trim b) <;> rw [decodeLine_eq, hi] <;> exact nofun

/-- Outside the control cycle no operation but `RESET` writes the command or an indicator register, and the
reset values meet the table (R37, R38). -/
theorem exec_keeps_indicatorTable {i : Instr} {s t : State} (hagent : agentOf i ≠ .controlCycle)
    (hs : IndicatorTable s) (h : exec i s = .next t) : IndicatorTable t := by
  by_cases hreset : ∃ pins, i = .reset pins
  · obtain ⟨pins, rfl⟩ := hreset
    obtain rfl := exec_reset.1 h
    exact resetWith_indicatorTable pins
  · obtain ⟨-, -, -, -, hwrites⟩ := singleWriters i s t h (not_exists.1 hreset)
    have hkeep := mt hwrites hagent
    simp only [not_or, not_not] at hkeep
    obtain ⟨hcmd, -, hblink, -, hout⟩ := hkeep
    unfold IndicatorTable
    rwa [hcmd, hblink, hout]

/-- Settles O56: taking the event changes no register, a cycle establishes the table whatever it finds, and
every other event's operation keeps it. -/
theorem stepKeepsIndicatorTable : Obligations.StepKeepsIndicatorTable := by
  unfold Obligations.StepKeepsIndicatorTable
  intro s t hs h
  obtain ⟨i, hdec, -⟩ := canHappen_decodes_enabled (canHappen_nextInput s)
  have hexec : exec i s.afterFetch = .next t := (step_of_decode hdec).symm.trans h
  have hfetch : IndicatorTable s.afterFetch := by simpa [IndicatorTable] using hs
  obtain rfl | hagent := decodeInput_agentOf hdec
  · exact cycle_indicatorTable hexec
  · exact exec_keeps_indicatorTable hagent hfetch hexec

end Sys2Proof.Machine

/-! ### Progress, and `RESET` after another operation (60_exceptions.md, R210, R216) -/

namespace Sys2Proof.Machine

open Sys2Proof

/-- `RESET` takes every register to the same value from any two states: they differ afterwards only in the
trace and the model's own record, which it keeps (R240, log 6). -/
theorem reset_registers_independent {pins : PerChannel Bool} {s t u v : State}
    (ht : exec (.reset pins) t = .next u) (hs : exec (.reset pins) s = .next v) :
    u = { v with trace := t.trace, results := t.results, inputs := t.inputs, eventNo := t.eventNo } := by
  obtain rfl := exec_reset.1 ht
  obtain rfl := exec_reset.1 hs
  rfl

/-- Settles O49: the state in which the operation before `RESET` leaves the registers does not matter. -/
theorem resetWins : Obligations.ResetWins := by
  unfold Obligations.ResetWins
  intro i pins s t u v _ hafter halone
  exact reset_registers_independent hafter halone

/-- No operation faults: a meaning answers a next state or the refusal of a step that is not enabled (R210). -/
theorem exec_ne_fault (i : Instr) (s : State) (r : Fault) : exec i s ≠ .fault r := by
  intro hfault
  obtain ⟨_, hnext⟩ | ⟨_, hrefused⟩ := takenOrNotEnabled_exec i s
  · exact nomatch hnext.symm.trans hfault
  · exact nomatch hrefused.symm.trans hfault

/-- Settles O51: being enabled is having a next state, and no answer is a fault. -/
theorem enabledOperationsComplete : Obligations.EnabledOperationsComplete := by
  unfold Obligations.EnabledOperationsComplete
  exact ⟨fun i s => (exec_taken_iff_enabled i s).2, exec_ne_fault⟩

/-- Settles O60: the event a step takes decodes to an operation that is enabled, so that one completes. -/
theorem everyStateSteps : Obligations.EveryStateSteps := by
  unfold Obligations.EveryStateSteps
  intro s
  obtain ⟨_, t, hstep, -⟩ := step_taken s
  exact ⟨t, hstep⟩

end Sys2Proof.Machine

/-! ### Reset and noninterference (70_reset_and_hazards.md) -/

namespace Sys2Proof.Machine

open Sys2Proof

/-! #### What follows a reset (R240, R244) -/

/-- Settles O48: every array is uniform at reset, so its reset value is read off at each channel. -/
theorem resetSetsEveryRegister : Obligations.ResetSetsEveryRegister := by
  unfold Obligations.ResetSetsEveryRegister
  refine fun pins s => ⟨_, exec_reset.2 rfl, rfl, rfl, rfl, fun c => ⟨rfl, ?start, ?width⟩, rfl, rfl, rfl, rfl⟩
  case start => cases c <;> rfl
  case width => cases c <;> rfl

/-- Ticks alone can always be run, and advance `TIME` by their number and nothing else (R110). -/
theorem runAll_replicate_tick (n : Nat) (s : State) :
    runAll (List.replicate n .tick) s = .next { s with time := s.time + BitVec.ofNat 32 n } := by
  induction n generalizing s with
  | zero => exact runAll_nil_eq_next.2 (by simp)
  | succ n ih =>
    rw [List.replicate_succ]
    refine runAll_cons_eq_next.2 ⟨_, exec_tick.2 rfl, (ih _).trans ?_⟩
    simp only [Nat.add_comm n 1, BitVec.ofNat_add, ← BitVec.add_assoc]
    rfl

/-- Settles O19: after a reset `TIME` and `START[c]` are both 0, so the modular difference the falling edge
publishes is the number of ticks. -/
theorem firstFallAfterReset : Obligations.FirstFallAfterReset := by
  unfold Obligations.FirstFallAfterReset
  intro c pins n s hhigh
  obtain ⟨u, hreset, htime, -, -, hcapture, -⟩ := resetSetsEveryRegister pins s
  obtain ⟨hpin, hstart, -⟩ := hcapture c
  have hfall : runAll [.fall c] { u with time := u.time + BitVec.ofNat 32 n } = .next _ :=
    runAll_cons_eq_next.2 ⟨_, exec_fall.2 ⟨hpin.trans hhigh, rfl⟩, rfl⟩
  refine ⟨_, runAll_cons_eq_next.2
    ⟨u, hreset, runAll_append_eq_next.2 ⟨_, runAll_replicate_tick n u, hfall⟩⟩, ?_⟩
  simp [htime, hstart]

/-! #### What a cycle does not read (R252) -/

/-- The indicator phase reads and writes neither the widths nor the mailbox (R190). -/
theorem indicate_with_width_mbx (t : Word) (s : State) (w : PerChannel Word) (m : Option Message) :
    ({ s with width := w, mbx := m } : State).indicate t =
      { s.indicate t with width := w, mbx := m } := by
  unfold State.indicate
  cases classOf s.cmd with
  | reversing => rfl
  | neutral => rfl
  | turn side =>
    simp only [turn_eq]
    split <;> rfl

/-- Phase 2 of an autonomous cycle reads of the widths MODE alone (R152, R155, R156). -/
theorem arbitrate_with_width_of_autonomous {s : State} {w : PerChannel Word}
    (hauto : 1500 < (s.width.get .mode).toNat) (hmode : w.get .mode = s.width.get .mode) :
    ({ s with width := w } : State).arbitrate ({ s with width := w } : State).snapshot =
      { s.arbitrate s.snapshot with width := w } := by
  have hauto' : 1500 < (({ s with width := w } : State).width.get .mode).toNat := hmode ▸ hauto
  obtain hempty | ⟨m, hheld⟩ := s.mbx.eq_none_or_eq_some
  · rw [arbitrate_of_empty hauto hempty, arbitrate_of_empty hauto' hempty]
    rfl
  · rw [arbitrate_of_held hauto hheld, arbitrate_of_held hauto' hheld, consume_eq, consume_eq]
    split <;> rfl

/-- Phase 2 of a manual cycle neither reads nor writes the mailbox (R154). -/
theorem arbitrate_with_mbx_of_manual {s : State} (m : Option Message)
    (hmanual : (s.width.get .mode).toNat ≤ 1500) :
    ({ s with mbx := m } : State).arbitrate ({ s with mbx := m } : State).snapshot =
      { s.arbitrate s.snapshot with mbx := m } := by
  rw [arbitrate_of_manual hmanual, arbitrate_of_manual (s := { s with mbx := m }) hmanual]
  rfl

/-- Settles O34: each phase of the cycle does the same beside the replaced widths. -/
theorem autonomousIgnoresTheSticks : Obligations.AutonomousIgnoresTheSticks := by
  unfold Obligations.AutonomousIgnoresTheSticks
  intro s t w1 w2 hauto h
  obtain rfl := exec_cycle.1 h
  have hphase := arbitrate_with_width_of_autonomous (w := (s.width.set .steer w1).set .throttle w2) hauto rfl
  rw [exec_cycle, hphase]
  simpa using (indicate_with_width_mbx s.time (s.arbitrate s.snapshot) _ _).symm

/-- Settles O35: each phase of the cycle does the same beside the replaced mailbox. -/
theorem manualIgnoresTheMailbox : Obligations.ManualIgnoresTheMailbox := by
  unfold Obligations.ManualIgnoresTheMailbox
  intro s t m hmanual h
  refine ⟨?same, (cycle_mbx h).trans (if_pos hmanual)⟩
  case same =>
    obtain rfl := exec_cycle.1 h
    rw [exec_cycle, arbitrate_with_mbx_of_manual m hmanual]
    simpa using (indicate_with_width_mbx s.time (s.arbitrate s.snapshot) _ m).symm

end Sys2Proof.Machine
